-- ==== Sys2Proof/Word.lean ====
section
/-! DEFINITION. The unit of the input stream (00_scope.md R6: "A byte is 8 bits"). -/

namespace Sys2Proof

/-- One byte of the stream (R6, R30). -/
abbrev Byte := BitVec 8

end Sys2Proof
end

