-- ==== Sys2Proof/Config.lean ====
section
/-! DEFINITION. What is fixed for the machine (R5, R24), and the free values: opaque constants with no body, about
which nothing can be proved but that they are what they are. -/

namespace Sys2Proof

/-- The reference the Payload Sink answers with (R5: "OPEN: opaque to the core"). The core copies it and never looks
inside; a token stands for whatever the sink's references are. DESIGN CHOICE, safe, log 7. -/
structure Ref where
  token : Nat
deriving DecidableEq, Repr, Inhabited

namespace Config

/-! ### Parameters with a value (R5) -/

/-- `SEEKPOINT_BYTES`: the size of one seek point (R5, R58). -/
def seekPointBytes : Nat := 18

/-- `PICTYPE_MAX`: the largest valid picture-type code (R5, R63). PRESUMED by the spec (GK2), log 18. -/
def picTypeMax : Nat := 20

/-- The number of geometry/colour bytes a Picture skips (R108: "the number is 16, not a parameter"). -/
def geometryBytes : Nat := 16

/-- The number of checksum bytes of a StreamInfo (R56). -/
def checksumBytes : Nat := 16

/-- The bound no stream's length reaches (R5: "Streams of 2^64 bytes or more are refused"). -/
def streamBound : Nat := 2 ^ 64

/-- The four signature bytes "fLaC" (R51). -/
def signature : List Byte := [0x66, 0x4C, 0x61, 0x43]

/-- The category names of the picture-type codes 0 to 20, in code order (R63). For the line-sink only; no operation
reads a name. PRESUMED by the spec (GK2) but for code 3, log 18. -/
def pictureCategories : List String :=
  ["Other", "32x32 pixels file icon (PNG only)", "Other file icon", "Cover (front)", "Cover (back)",
   "Leaflet page", "Media (e.g. label side of CD)", "Lead artist/lead performer/soloist", "Artist/performer",
   "Conductor", "Band/orchestra"] ++
  ["Composer", "Lyricist/text writer", "Recording location", "During recording", "During performance",
   "Movie/video screen capture", "A bright coloured fish", "Illustration", "Band/artist logotype",
   "Publisher/studio logotype"]

/-! ### The Payload Sink's answers (R5 `PaySink`, R109, U14) -/

/-- The sink's answer to one payload: a draw of the environment, under no law; `draw` numbers the draws.
That it always answers is a launch premise (R134), unsafe, log 8. -/
opaque paySink (draw : Nat) (payload : List Byte) : Ref

/-! ### Registers the spec leaves unspecified at reset (R23, U10). DESIGN CHOICE, log 5. -/

opaque resetIsLast : Bool
opaque resetBlockType : BitVec 7
opaque resetLength : BitVec 24
opaque resetBodyRem : BitVec 24
opaque resetAcc : BitVec 64
opaque resetCnt : BitVec 32
opaque resetLen : BitVec 32

/-! ### Registers that are not defined after a failure entry (R127, U11: "any value"). DESIGN CHOICE, log 6. -/

opaque failedCursor (draw : Nat) : BitVec 64
opaque failedIsLast (draw : Nat) : Bool
opaque failedBlockType (draw : Nat) : BitVec 7
opaque failedLength (draw : Nat) : BitVec 24
opaque failedBodyRem (draw : Nat) : BitVec 24
opaque failedAcc (draw : Nat) : BitVec 64
opaque failedCnt (draw : Nat) : BitVec 32
opaque failedLen (draw : Nat) : BitVec 32

end Config

end Sys2Proof
end

