-- ==== Sys2Proof/Syntax.lean ====
section
/-! DEFINITION. The instructions: one constructor per row of spec/opcode_table.json, the signature word and the 128
block-type codes (30_encoding.md R54). A header's two operands are its last-flag and its body length (R52). -/

namespace Sys2Proof

/-- The items of the input stream, read as instructions (R50, R54). A block instruction stands for a whole block: its
header word carries `isLast` and `length`, its body bytes are read from the stream when it runs. -/
inductive Instr where
  /-- SIG: the stream signature, valid only as the first word of the stream (R51, R113). -/
  | sig
  /-- STREAMINFO, type code 0 (R90). -/
  | streaminfo (isLast : Bool) (length : BitVec 24)
  /-- PADDING, type code 1 (R91). -/
  | padding (isLast : Bool) (length : BitVec 24)
  /-- APPLICATION, type code 2 (R82). -/
  | application (isLast : Bool) (length : BitVec 24)
  /-- SEEKTABLE, type code 3 (R92). -/
  | seektable (isLast : Bool) (length : BitVec 24)
  /-- VORBISCOMMENT, type code 4 (R100). -/
  | vorbiscomment (isLast : Bool) (length : BitVec 24)
  /-- CUESHEET, type code 5 (R83). -/
  | cuesheet (isLast : Bool) (length : BitVec 24)
  /-- PICTURE, type code 6 (R105). -/
  | picture (isLast : Bool) (length : BitVec 24)
  -- RESERVED_7 to RESERVED_126: type codes 7 to 126 (R85).
  | reserved7 (isLast : Bool) (length : BitVec 24)
  | reserved8 (isLast : Bool) (length : BitVec 24)
  | reserved9 (isLast : Bool) (length : BitVec 24)
  | reserved10 (isLast : Bool) (length : BitVec 24)
  | reserved11 (isLast : Bool) (length : BitVec 24)
  | reserved12 (isLast : Bool) (length : BitVec 24)
  | reserved13 (isLast : Bool) (length : BitVec 24)
  | reserved14 (isLast : Bool) (length : BitVec 24)
  | reserved15 (isLast : Bool) (length : BitVec 24)
  | reserved16 (isLast : Bool) (length : BitVec 24)
  | reserved17 (isLast : Bool) (length : BitVec 24)
  | reserved18 (isLast : Bool) (length : BitVec 24)
  | reserved19 (isLast : Bool) (length : BitVec 24)
  | reserved20 (isLast : Bool) (length : BitVec 24)
  | reserved21 (isLast : Bool) (length : BitVec 24)
  | reserved22 (isLast : Bool) (length : BitVec 24)
  | reserved23 (isLast : Bool) (length : BitVec 24)
  | reserved24 (isLast : Bool) (length : BitVec 24)
  | reserved25 (isLast : Bool) (length : BitVec 24)
  | reserved26 (isLast : Bool) (length : BitVec 24)
  | reserved27 (isLast : Bool) (length : BitVec 24)
  | reserved28 (isLast : Bool) (length : BitVec 24)
  | reserved29 (isLast : Bool) (length : BitVec 24)
  | reserved30 (isLast : Bool) (length : BitVec 24)
  | reserved31 (isLast : Bool) (length : BitVec 24)
  | reserved32 (isLast : Bool) (length : BitVec 24)
  | reserved33 (isLast : Bool) (length : BitVec 24)
  | reserved34 (isLast : Bool) (length : BitVec 24)
  | reserved35 (isLast : Bool) (length : BitVec 24)
  | reserved36 (isLast : Bool) (length : BitVec 24)
  | reserved37 (isLast : Bool) (length : BitVec 24)
  | reserved38 (isLast : Bool) (length : BitVec 24)
  | reserved39 (isLast : Bool) (length : BitVec 24)
  | reserved40 (isLast : Bool) (length : BitVec 24)
  | reserved41 (isLast : Bool) (length : BitVec 24)
  | reserved42 (isLast : Bool) (length : BitVec 24)
  | reserved43 (isLast : Bool) (length : BitVec 24)
  | reserved44 (isLast : Bool) (length : BitVec 24)
  | reserved45 (isLast : Bool) (length : BitVec 24)
  | reserved46 (isLast : Bool) (length : BitVec 24)
  | reserved47 (isLast : Bool) (length : BitVec 24)
  | reserved48 (isLast : Bool) (length : BitVec 24)
  | reserved49 (isLast : Bool) (length : BitVec 24)
  | reserved50 (isLast : Bool) (length : BitVec 24)
  | reserved51 (isLast : Bool) (length : BitVec 24)
  | reserved52 (isLast : Bool) (length : BitVec 24)
  | reserved53 (isLast : Bool) (length : BitVec 24)
  | reserved54 (isLast : Bool) (length : BitVec 24)
  | reserved55 (isLast : Bool) (length : BitVec 24)
  | reserved56 (isLast : Bool) (length : BitVec 24)
  | reserved57 (isLast : Bool) (length : BitVec 24)
  | reserved58 (isLast : Bool) (length : BitVec 24)
  | reserved59 (isLast : Bool) (length : BitVec 24)
  | reserved60 (isLast : Bool) (length : BitVec 24)
  | reserved61 (isLast : Bool) (length : BitVec 24)
  | reserved62 (isLast : Bool) (length : BitVec 24)
  | reserved63 (isLast : Bool) (length : BitVec 24)
  | reserved64 (isLast : Bool) (length : BitVec 24)
  | reserved65 (isLast : Bool) (length : BitVec 24)
  | reserved66 (isLast : Bool) (length : BitVec 24)
  | reserved67 (isLast : Bool) (length : BitVec 24)
  | reserved68 (isLast : Bool) (length : BitVec 24)
  | reserved69 (isLast : Bool) (length : BitVec 24)
  | reserved70 (isLast : Bool) (length : BitVec 24)
  | reserved71 (isLast : Bool) (length : BitVec 24)
  | reserved72 (isLast : Bool) (length : BitVec 24)
  | reserved73 (isLast : Bool) (length : BitVec 24)
  | reserved74 (isLast : Bool) (length : BitVec 24)
  | reserved75 (isLast : Bool) (length : BitVec 24)
  | reserved76 (isLast : Bool) (length : BitVec 24)
  | reserved77 (isLast : Bool) (length : BitVec 24)
  | reserved78 (isLast : Bool) (length : BitVec 24)
  | reserved79 (isLast : Bool) (length : BitVec 24)
  | reserved80 (isLast : Bool) (length : BitVec 24)
  | reserved81 (isLast : Bool) (length : BitVec 24)
  | reserved82 (isLast : Bool) (length : BitVec 24)
  | reserved83 (isLast : Bool) (length : BitVec 24)
  | reserved84 (isLast : Bool) (length : BitVec 24)
  | reserved85 (isLast : Bool) (length : BitVec 24)
  | reserved86 (isLast : Bool) (length : BitVec 24)
  | reserved87 (isLast : Bool) (length : BitVec 24)
  | reserved88 (isLast : Bool) (length : BitVec 24)
  | reserved89 (isLast : Bool) (length : BitVec 24)
  | reserved90 (isLast : Bool) (length : BitVec 24)
  | reserved91 (isLast : Bool) (length : BitVec 24)
  | reserved92 (isLast : Bool) (length : BitVec 24)
  | reserved93 (isLast : Bool) (length : BitVec 24)
  | reserved94 (isLast : Bool) (length : BitVec 24)
  | reserved95 (isLast : Bool) (length : BitVec 24)
  | reserved96 (isLast : Bool) (length : BitVec 24)
  | reserved97 (isLast : Bool) (length : BitVec 24)
  | reserved98 (isLast : Bool) (length : BitVec 24)
  | reserved99 (isLast : Bool) (length : BitVec 24)
  | reserved100 (isLast : Bool) (length : BitVec 24)
  | reserved101 (isLast : Bool) (length : BitVec 24)
  | reserved102 (isLast : Bool) (length : BitVec 24)
  | reserved103 (isLast : Bool) (length : BitVec 24)
  | reserved104 (isLast : Bool) (length : BitVec 24)
  | reserved105 (isLast : Bool) (length : BitVec 24)
  | reserved106 (isLast : Bool) (length : BitVec 24)
  | reserved107 (isLast : Bool) (length : BitVec 24)
  | reserved108 (isLast : Bool) (length : BitVec 24)
  | reserved109 (isLast : Bool) (length : BitVec 24)
  | reserved110 (isLast : Bool) (length : BitVec 24)
  | reserved111 (isLast : Bool) (length : BitVec 24)
  | reserved112 (isLast : Bool) (length : BitVec 24)
  | reserved113 (isLast : Bool) (length : BitVec 24)
  | reserved114 (isLast : Bool) (length : BitVec 24)
  | reserved115 (isLast : Bool) (length : BitVec 24)
  | reserved116 (isLast : Bool) (length : BitVec 24)
  | reserved117 (isLast : Bool) (length : BitVec 24)
  | reserved118 (isLast : Bool) (length : BitVec 24)
  | reserved119 (isLast : Bool) (length : BitVec 24)
  | reserved120 (isLast : Bool) (length : BitVec 24)
  | reserved121 (isLast : Bool) (length : BitVec 24)
  | reserved122 (isLast : Bool) (length : BitVec 24)
  | reserved123 (isLast : Bool) (length : BitVec 24)
  | reserved124 (isLast : Bool) (length : BitVec 24)
  | reserved125 (isLast : Bool) (length : BitVec 24)
  | reserved126 (isLast : Bool) (length : BitVec 24)
  /-- INVALID, type code 127 (R84). -/
  | invalid (isLast : Bool) (length : BitVec 24)
deriving DecidableEq, Repr

end Sys2Proof
end

