-- ==== Sys2Proof/WellFormed.lean ====
section
/-! DEFINITION. Where an instruction may stand in a stream, and which header lengths a producer may write. Every
header word decodes (30_encoding.md R52, R55: the last-flag and the length never make a header illegal by
themselves), so well-formedness is about the place in the stream. -/

namespace Sys2Proof

/-- The two places of a stream where an instruction word is read: the first word, and every later header word
(R50, R54; the "context" column of the opcode table). -/
inductive Slot where
  | signature
  | header
deriving DecidableEq, Repr

/-- The place an instruction belongs to: SIG is "valid only as the first word of the stream", the 128 header rows
apply "to every later header word" (R54). -/
def Instr.slot : Instr → Slot
  | .sig => .signature
  | _ => .header

/-- `i` may stand in slot `c`. -/
def Instr.wellFormed (c : Slot) (i : Instr) : Bool := i.slot = c

/-- The lengths a producer may write in a header if the block is to close (70_reset_and_hazards.md R144), and no
length at all for a type that has no parser (R149). For VORBISCOMMENT and PICTURE the length also depends on the
body; the bound is the smallest body's. -/
def Instr.closable : Instr → Bool
  | .sig => true
  | .streaminfo _ length => length.toNat = 34
  | .padding _ _ => true
  | .seektable _ length => length.toNat % 18 = 0
  | .vorbiscomment _ length => 8 ≤ length.toNat
  | .picture _ length => 32 ≤ length.toNat
  | _ => false

end Sys2Proof
end

