-- ==== Sys2Proof/Decode.lean ====
section
/-! DEFINITION. Byte order (20_memory.md R32), the decoder of instruction words (30_encoding.md R51 to R55), total on any bytes,
and the encoder after it. -/

namespace Sys2Proof

/-! ### Byte order -/

/-- The big-endian value of a byte sequence: the sum over i of b[i] * 256^(k-1-i) (R71). -/
def beNat : List Byte → Nat
  | [] => 0
  | b :: bs => b.toNat * 256 ^ bs.length + beNat bs

/-- The little-endian value of a byte sequence: the sum over i of b[i] * 256^i (R72). -/
def leNat : List Byte → Nat
  | [] => 0
  | b :: bs => b.toNat + 256 * leNat bs

/-- The low `k` bytes of `v`, most significant first. -/
def beBytes : Nat → Nat → List Byte
  | 0, _ => []
  | k + 1, v => BitVec.ofNat 8 (v / 256 ^ k) :: beBytes k v

/-- The low `k` bytes of `v`, least significant first. -/
def leBytes : Nat → Nat → List Byte
  | 0, _ => []
  | k + 1, v => BitVec.ofNat 8 v :: leBytes k (v / 256)

/-! ### Header fields (R52, R53) -/

/-- The 32-bit word of the first four bytes of `bs`, big-endian (R53). -/
def wordOfBytes (bs : List Byte) : BitVec 32 := BitVec.ofNat 32 (beNat (bs.take 4))

/-- `is_last = w[31]` (R53). -/
def hdrIsLast (w : BitVec 32) : Bool := w.getLsbD 31

/-- `block_type = w[30:24]` (R53). -/
def hdrBlockType (w : BitVec 32) : BitVec 7 := w.extractLsb' 24 7

/-- `length = w[23:0]` (R53). -/
def hdrLength (w : BitVec 32) : BitVec 24 := w.extractLsb' 0 24

/-! ### The opcode map (R54) -/

/-- The block instruction of a type code: all 128 codes (R54, R65). -/
def instrOfCode (t : BitVec 7) (isLast : Bool) (length : BitVec 24) : Instr :=
  match t.toNat with
  | 0 => .streaminfo isLast length
  | 1 => .padding isLast length
  | 2 => .application isLast length
  | 3 => .seektable isLast length
  | 4 => .vorbiscomment isLast length
  | 5 => .cuesheet isLast length
  | 6 => .picture isLast length
  | 7 => .reserved7 isLast length
  | 8 => .reserved8 isLast length
  | 9 => .reserved9 isLast length
  | 10 => .reserved10 isLast length
  | 11 => .reserved11 isLast length
  | 12 => .reserved12 isLast length
  | 13 => .reserved13 isLast length
  | 14 => .reserved14 isLast length
  | 15 => .reserved15 isLast length
  | 16 => .reserved16 isLast length
  | 17 => .reserved17 isLast length
  | 18 => .reserved18 isLast length
  | 19 => .reserved19 isLast length
  | 20 => .reserved20 isLast length
  | 21 => .reserved21 isLast length
  | 22 => .reserved22 isLast length
  | 23 => .reserved23 isLast length
  | 24 => .reserved24 isLast length
  | 25 => .reserved25 isLast length
  | 26 => .reserved26 isLast length
  | 27 => .reserved27 isLast length
  | 28 => .reserved28 isLast length
  | 29 => .reserved29 isLast length
  | 30 => .reserved30 isLast length
  | 31 => .reserved31 isLast length
  | 32 => .reserved32 isLast length
  | 33 => .reserved33 isLast length
  | 34 => .reserved34 isLast length
  | 35 => .reserved35 isLast length
  | 36 => .reserved36 isLast length
  | 37 => .reserved37 isLast length
  | 38 => .reserved38 isLast length
  | 39 => .reserved39 isLast length
  | 40 => .reserved40 isLast length
  | 41 => .reserved41 isLast length
  | 42 => .reserved42 isLast length
  | 43 => .reserved43 isLast length
  | 44 => .reserved44 isLast length
  | 45 => .reserved45 isLast length
  | 46 => .reserved46 isLast length
  | 47 => .reserved47 isLast length
  | 48 => .reserved48 isLast length
  | 49 => .reserved49 isLast length
  | 50 => .reserved50 isLast length
  | 51 => .reserved51 isLast length
  | 52 => .reserved52 isLast length
  | 53 => .reserved53 isLast length
  | 54 => .reserved54 isLast length
  | 55 => .reserved55 isLast length
  | 56 => .reserved56 isLast length
  | 57 => .reserved57 isLast length
  | 58 => .reserved58 isLast length
  | 59 => .reserved59 isLast length
  | 60 => .reserved60 isLast length
  | 61 => .reserved61 isLast length
  | 62 => .reserved62 isLast length
  | 63 => .reserved63 isLast length
  | 64 => .reserved64 isLast length
  | 65 => .reserved65 isLast length
  | 66 => .reserved66 isLast length
  | 67 => .reserved67 isLast length
  | 68 => .reserved68 isLast length
  | 69 => .reserved69 isLast length
  | 70 => .reserved70 isLast length
  | 71 => .reserved71 isLast length
  | 72 => .reserved72 isLast length
  | 73 => .reserved73 isLast length
  | 74 => .reserved74 isLast length
  | 75 => .reserved75 isLast length
  | 76 => .reserved76 isLast length
  | 77 => .reserved77 isLast length
  | 78 => .reserved78 isLast length
  | 79 => .reserved79 isLast length
  | 80 => .reserved80 isLast length
  | 81 => .reserved81 isLast length
  | 82 => .reserved82 isLast length
  | 83 => .reserved83 isLast length
  | 84 => .reserved84 isLast length
  | 85 => .reserved85 isLast length
  | 86 => .reserved86 isLast length
  | 87 => .reserved87 isLast length
  | 88 => .reserved88 isLast length
  | 89 => .reserved89 isLast length
  | 90 => .reserved90 isLast length
  | 91 => .reserved91 isLast length
  | 92 => .reserved92 isLast length
  | 93 => .reserved93 isLast length
  | 94 => .reserved94 isLast length
  | 95 => .reserved95 isLast length
  | 96 => .reserved96 isLast length
  | 97 => .reserved97 isLast length
  | 98 => .reserved98 isLast length
  | 99 => .reserved99 isLast length
  | 100 => .reserved100 isLast length
  | 101 => .reserved101 isLast length
  | 102 => .reserved102 isLast length
  | 103 => .reserved103 isLast length
  | 104 => .reserved104 isLast length
  | 105 => .reserved105 isLast length
  | 106 => .reserved106 isLast length
  | 107 => .reserved107 isLast length
  | 108 => .reserved108 isLast length
  | 109 => .reserved109 isLast length
  | 110 => .reserved110 isLast length
  | 111 => .reserved111 isLast length
  | 112 => .reserved112 isLast length
  | 113 => .reserved113 isLast length
  | 114 => .reserved114 isLast length
  | 115 => .reserved115 isLast length
  | 116 => .reserved116 isLast length
  | 117 => .reserved117 isLast length
  | 118 => .reserved118 isLast length
  | 119 => .reserved119 isLast length
  | 120 => .reserved120 isLast length
  | 121 => .reserved121 isLast length
  | 122 => .reserved122 isLast length
  | 123 => .reserved123 isLast length
  | 124 => .reserved124 isLast length
  | 125 => .reserved125 isLast length
  | 126 => .reserved126 isLast length
  | _ => .invalid isLast length

/-- The block instruction a header word stands for: every word is one (R52, R80). -/
def decodeHeaderWord (w : BitVec 32) : Instr :=
  instrOfCode (hdrBlockType w) (hdrIsLast w) (hdrLength w)

/-- Why bytes are no instruction in their slot. -/
inductive DecodeError where
  /-- Fewer than four bytes are there. -/
  | tooShort (available : Nat)
  /-- The first word of the stream is not the signature; `word` is what stands there. -/
  | badSignature (word : BitVec 32)
deriving DecidableEq, Repr

/-- The decoder: the instruction at the head of `bs` in slot `c`, and the bytes after its word. -/
def decode (c : Slot) (bs : List Byte) : Except DecodeError (Instr × List Byte) :=
  if bs.length < 4 then .error (.tooShort bs.length)
  else
    match c with
    | .signature =>
      if bs.take 4 = Config.signature then .ok (.sig, bs.drop 4) else .error (.badSignature (wordOfBytes bs))
    | .header => .ok (decodeHeaderWord (wordOfBytes bs), bs.drop 4)

/-- The decoder on one word of the opcode table, numbered as the table numbers it (the big-endian word of four stream
bytes). The table's SIG row is the signature slot's; every other word is read in the header slot. The one word that
both rows match, 0x664C6143 (SIG, and RESERVED_102 with length 0x4C6143), is answered with SIG: log 15. -/
def decodeTableWord (nbits w : Nat) : Option Instr :=
  if nbits = 32 ∧ w < 2 ^ 32 then
    match decode .signature (beBytes 4 w) with
    | .ok (i, _) => some i
    | .error _ =>
      match decode .header (beBytes 4 w) with
      | .ok (i, _) => some i
      | .error _ => none
  else none

/-! ### The encoder, from the same tables -/

/-- The header word of a triple: 1 bit, 7 bits, 24 bits (R52). -/
def headerWord (isLast : Bool) (t : BitVec 7) (length : BitVec 24) : BitVec 32 :=
  BitVec.ofBool isLast ++ t ++ length

/-- The word of an instruction: the signature word (R51), or the header word with the instruction's code (R54). -/
def encodeWord : Instr → BitVec 32
  | .sig => 0x664C6143
  | .streaminfo isLast length => headerWord isLast 0 length
  | .padding isLast length => headerWord isLast 1 length
  | .application isLast length => headerWord isLast 2 length
  | .seektable isLast length => headerWord isLast 3 length
  | .vorbiscomment isLast length => headerWord isLast 4 length
  | .cuesheet isLast length => headerWord isLast 5 length
  | .picture isLast length => headerWord isLast 6 length
  | .reserved7 isLast length => headerWord isLast 7 length
  | .reserved8 isLast length => headerWord isLast 8 length
  | .reserved9 isLast length => headerWord isLast 9 length
  | .reserved10 isLast length => headerWord isLast 10 length
  | .reserved11 isLast length => headerWord isLast 11 length
  | .reserved12 isLast length => headerWord isLast 12 length
  | .reserved13 isLast length => headerWord isLast 13 length
  | .reserved14 isLast length => headerWord isLast 14 length
  | .reserved15 isLast length => headerWord isLast 15 length
  | .reserved16 isLast length => headerWord isLast 16 length
  | .reserved17 isLast length => headerWord isLast 17 length
  | .reserved18 isLast length => headerWord isLast 18 length
  | .reserved19 isLast length => headerWord isLast 19 length
  | .reserved20 isLast length => headerWord isLast 20 length
  | .reserved21 isLast length => headerWord isLast 21 length
  | .reserved22 isLast length => headerWord isLast 22 length
  | .reserved23 isLast length => headerWord isLast 23 length
  | .reserved24 isLast length => headerWord isLast 24 length
  | .reserved25 isLast length => headerWord isLast 25 length
  | .reserved26 isLast length => headerWord isLast 26 length
  | .reserved27 isLast length => headerWord isLast 27 length
  | .reserved28 isLast length => headerWord isLast 28 length
  | .reserved29 isLast length => headerWord isLast 29 length
  | .reserved30 isLast length => headerWord isLast 30 length
  | .reserved31 isLast length => headerWord isLast 31 length
  | .reserved32 isLast length => headerWord isLast 32 length
  | .reserved33 isLast length => headerWord isLast 33 length
  | .reserved34 isLast length => headerWord isLast 34 length
  | .reserved35 isLast length => headerWord isLast 35 length
  | .reserved36 isLast length => headerWord isLast 36 length
  | .reserved37 isLast length => headerWord isLast 37 length
  | .reserved38 isLast length => headerWord isLast 38 length
  | .reserved39 isLast length => headerWord isLast 39 length
  | .reserved40 isLast length => headerWord isLast 40 length
  | .reserved41 isLast length => headerWord isLast 41 length
  | .reserved42 isLast length => headerWord isLast 42 length
  | .reserved43 isLast length => headerWord isLast 43 length
  | .reserved44 isLast length => headerWord isLast 44 length
  | .reserved45 isLast length => headerWord isLast 45 length
  | .reserved46 isLast length => headerWord isLast 46 length
  | .reserved47 isLast length => headerWord isLast 47 length
  | .reserved48 isLast length => headerWord isLast 48 length
  | .reserved49 isLast length => headerWord isLast 49 length
  | .reserved50 isLast length => headerWord isLast 50 length
  | .reserved51 isLast length => headerWord isLast 51 length
  | .reserved52 isLast length => headerWord isLast 52 length
  | .reserved53 isLast length => headerWord isLast 53 length
  | .reserved54 isLast length => headerWord isLast 54 length
  | .reserved55 isLast length => headerWord isLast 55 length
  | .reserved56 isLast length => headerWord isLast 56 length
  | .reserved57 isLast length => headerWord isLast 57 length
  | .reserved58 isLast length => headerWord isLast 58 length
  | .reserved59 isLast length => headerWord isLast 59 length
  | .reserved60 isLast length => headerWord isLast 60 length
  | .reserved61 isLast length => headerWord isLast 61 length
  | .reserved62 isLast length => headerWord isLast 62 length
  | .reserved63 isLast length => headerWord isLast 63 length
  | .reserved64 isLast length => headerWord isLast 64 length
  | .reserved65 isLast length => headerWord isLast 65 length
  | .reserved66 isLast length => headerWord isLast 66 length
  | .reserved67 isLast length => headerWord isLast 67 length
  | .reserved68 isLast length => headerWord isLast 68 length
  | .reserved69 isLast length => headerWord isLast 69 length
  | .reserved70 isLast length => headerWord isLast 70 length
  | .reserved71 isLast length => headerWord isLast 71 length
  | .reserved72 isLast length => headerWord isLast 72 length
  | .reserved73 isLast length => headerWord isLast 73 length
  | .reserved74 isLast length => headerWord isLast 74 length
  | .reserved75 isLast length => headerWord isLast 75 length
  | .reserved76 isLast length => headerWord isLast 76 length
  | .reserved77 isLast length => headerWord isLast 77 length
  | .reserved78 isLast length => headerWord isLast 78 length
  | .reserved79 isLast length => headerWord isLast 79 length
  | .reserved80 isLast length => headerWord isLast 80 length
  | .reserved81 isLast length => headerWord isLast 81 length
  | .reserved82 isLast length => headerWord isLast 82 length
  | .reserved83 isLast length => headerWord isLast 83 length
  | .reserved84 isLast length => headerWord isLast 84 length
  | .reserved85 isLast length => headerWord isLast 85 length
  | .reserved86 isLast length => headerWord isLast 86 length
  | .reserved87 isLast length => headerWord isLast 87 length
  | .reserved88 isLast length => headerWord isLast 88 length
  | .reserved89 isLast length => headerWord isLast 89 length
  | .reserved90 isLast length => headerWord isLast 90 length
  | .reserved91 isLast length => headerWord isLast 91 length
  | .reserved92 isLast length => headerWord isLast 92 length
  | .reserved93 isLast length => headerWord isLast 93 length
  | .reserved94 isLast length => headerWord isLast 94 length
  | .reserved95 isLast length => headerWord isLast 95 length
  | .reserved96 isLast length => headerWord isLast 96 length
  | .reserved97 isLast length => headerWord isLast 97 length
  | .reserved98 isLast length => headerWord isLast 98 length
  | .reserved99 isLast length => headerWord isLast 99 length
  | .reserved100 isLast length => headerWord isLast 100 length
  | .reserved101 isLast length => headerWord isLast 101 length
  | .reserved102 isLast length => headerWord isLast 102 length
  | .reserved103 isLast length => headerWord isLast 103 length
  | .reserved104 isLast length => headerWord isLast 104 length
  | .reserved105 isLast length => headerWord isLast 105 length
  | .reserved106 isLast length => headerWord isLast 106 length
  | .reserved107 isLast length => headerWord isLast 107 length
  | .reserved108 isLast length => headerWord isLast 108 length
  | .reserved109 isLast length => headerWord isLast 109 length
  | .reserved110 isLast length => headerWord isLast 110 length
  | .reserved111 isLast length => headerWord isLast 111 length
  | .reserved112 isLast length => headerWord isLast 112 length
  | .reserved113 isLast length => headerWord isLast 113 length
  | .reserved114 isLast length => headerWord isLast 114 length
  | .reserved115 isLast length => headerWord isLast 115 length
  | .reserved116 isLast length => headerWord isLast 116 length
  | .reserved117 isLast length => headerWord isLast 117 length
  | .reserved118 isLast length => headerWord isLast 118 length
  | .reserved119 isLast length => headerWord isLast 119 length
  | .reserved120 isLast length => headerWord isLast 120 length
  | .reserved121 isLast length => headerWord isLast 121 length
  | .reserved122 isLast length => headerWord isLast 122 length
  | .reserved123 isLast length => headerWord isLast 123 length
  | .reserved124 isLast length => headerWord isLast 124 length
  | .reserved125 isLast length => headerWord isLast 125 length
  | .reserved126 isLast length => headerWord isLast 126 length
  | .invalid isLast length => headerWord isLast 127 length

/-- The four stream bytes of an instruction's word, most significant first. -/
def encode (i : Instr) : List Byte := beBytes 4 (encodeWord i).toNat

end Sys2Proof
end

