-- ==== Sys2Proof/Machine/State.lean ====
section
/-! DEFINITION. The state of the core as 10_state.md gives it, and the state after reset (R23, R140). -/

namespace Sys2Proof.Machine

/-! ### The input stream (20_memory.md R30) -/

/-- The input stream: byte `i` of the list is the byte at offset `i`, and there is no other. It is canonical as it
stands: equal streams are equal lists. Reading past its end is the end-of-stream condition (R31). Log 1, 2. -/
abbrev Memory := List Byte

/-- A stream this hardware accepts: shorter than 2^64 bytes (R5, R11). -/
def Memory.wf (m : Memory) : Bool := m.length < Config.streamBound

/-- The byte at one offset, if the stream has it. -/
def Memory.read (m : Memory) (addr : Nat) : Option Byte := m[addr]?

/-! ### Control state -/

/-- `PHASE` (R12). BODY is entered and left inside one step (R114). -/
inductive Phase where
  | sig
  | header
  | body
  | done
  | failed
deriving DecidableEq, Repr

/-- `HDR`, the last decoded block header (R13). `isLast` is the hardware's only flag (R18). -/
structure Hdr where
  isLast : Bool
  blockType : BitVec 7
  length : BitVec 24
deriving DecidableEq, Repr

/-- The causes of a FormatError (R121). -/
inductive FormatCause where
  | badSignature
  | badPictureType
  | bodyOverread
  | bodyUnderread
deriving DecidableEq, Repr

/-- The causes of an UnsupportedBlockError (R122). -/
inductive UnsupportedCause where
  | application
  | cuesheet
  | invalid
  | reserved
deriving DecidableEq, Repr

/-- The causes of a TruncatedStreamError (R123). -/
inductive TruncatedCause where
  | inSignature
  | inHeader
  | inBody
deriving DecidableEq, Repr

/-- The error kinds with their causes (R120); `none` is `ERR.kind` = NONE. The numbers are `Err.kindCode` and
`Err.causeCode`. -/
inductive Reason where
  | none
  | format (cause : FormatCause)
  | unsupported (cause : UnsupportedCause)
  | truncated (cause : TruncatedCause)
deriving DecidableEq, Repr

/-- `ERR` (R17): kind and cause, and the info word. -/
structure Err where
  reason : Reason
  info : BitVec 32
deriving DecidableEq, Repr

/-! ### Block records (R19) -/

structure StreamInfoRec where
  minBlockSize : BitVec 16
  maxBlockSize : BitVec 16
  minFrameSize : BitVec 24
  maxFrameSize : BitVec 24
  packed : BitVec 64
  checksum : List Byte
deriving DecidableEq, Repr

structure SeekPoint where
  sampleNumber : BitVec 64
  byteOffset : BitVec 64
  frameSamples : BitVec 16
deriving DecidableEq, Repr

structure SeekTableRec where
  points : List SeekPoint
deriving DecidableEq, Repr

structure VorbisCommentRec where
  vendor : List Byte
  comments : List (List Byte)
deriving DecidableEq, Repr

structure PictureRec where
  pictureType : BitVec 32
  mime : List Byte
  description : List Byte
  payloadLength : BitVec 32
  ref : Ref
deriving DecidableEq, Repr

/-- The body of a block record. `padding` is PaddingRec, the record without fields. -/
inductive Body where
  | streamInfo (r : StreamInfoRec)
  | padding
  | seekTable (r : SeekTableRec)
  | vorbisComment (r : VorbisCommentRec)
  | picture (r : PictureRec)
deriving DecidableEq, Repr

/-- The empty `BLK`: "reg.BLK stays the empty PaddingRec" (R91), so the empty record is PaddingRec. Log 11. -/
abbrev Body.empty : Body := .padding

/-- One block record, as emitted on EVT (R19). -/
structure Block where
  isLast : Bool
  blockType : BitVec 7
  length : BitVec 24
  body : Body
deriving DecidableEq, Repr

end Sys2Proof.Machine

namespace Sys2Proof.Machine

/-- The state of the machine: the registers of R10, the stream and the output histories of the run (R22, R23, R24),
and the model's own counter of draws. -/
@[ext]
structure State where
  /-- The input stream `S` (R24, R30); no operation changes it. -/
  inp : Memory
  /-- `CURSOR`, the program counter (R11). -/
  cursor : Nat
  /-- `PHASE` (R12). -/
  phase : Phase
  /-- `HDR` (R13). -/
  hdr : Hdr
  /-- `BODY_REM` (R14). -/
  bodyRem : BitVec 24
  /-- `ACC` (R15). -/
  acc : BitVec 64
  /-- `CNT` (R16). -/
  cnt : BitVec 32
  /-- `LEN` (R16). -/
  len : BitVec 32
  /-- `ERR` (R17). -/
  err : Err
  /-- `BLK` (R19). -/
  blk : Body
  /-- What has been emitted on EVT, oldest first (R43). -/
  evt : List Block
  /-- The payloads handed to PAY, oldest first (R48). -/
  pay : List (List Byte)
  /-- Whether the Payload Sink resource is held (R22 (b)). -/
  sinkHeld : Bool
  /-- The number of free values drawn; the MODEL's own field (log 7). -/
  draws : Nat
deriving DecidableEq, Repr

/-- Why the machine stops. No instruction stops it in a state that enables the instruction. -/
inductive Fault where
  /-- PHASE is DONE: no step is enabled until reset (R115). Raised by `step`. Safe. -/
  | halted
  /-- PHASE is FAILED: no step is enabled until reset (R129). Raised by `step`. Safe. -/
  | failed
  /-- An operation asked for outside the phase that enables it: SIGCHECK outside SIG (R113), a block outside HEADER
  (R80), a step with PHASE = BODY, which is no resting phase (R114). Raised by `exec` and `step`. Safe. -/
  | notEnabled
deriving DecidableEq, Repr

/-- Why the model gives no meaning. -/
inductive Refusal where
  /-- An instruction without a meaning yet: none in this model. Raised by no arm. Safe. -/
  | notModelled (mnemonic : String)
  /-- A stream of 2^64 bytes or more, which this hardware does not accept (R5, R11, U9: `refuse`). Raised by `step`.
  Safe. -/
  | streamTooLong
deriving DecidableEq, Repr

/-- The state after reset (R23, R140). The stream lists nothing: a program is put in place from outside (log 13). The
registers the spec leaves unspecified hold opaque constants (log 5). -/
def State.reset : State where
  inp := []
  cursor := 0
  phase := .sig
  hdr := ⟨Config.resetIsLast, Config.resetBlockType, Config.resetLength⟩
  bodyRem := Config.resetBodyRem
  acc := Config.resetAcc
  cnt := Config.resetCnt
  len := Config.resetLen
  err := ⟨.none, 0⟩
  blk := .empty
  evt := []
  pay := []
  sinkHeld := false
  draws := 0

end Sys2Proof.Machine
end

