-- ==== Sys2Proof/Machine/Ops.lean ====
section
/-! DEFINITION. The operations every instruction is made of: register updates, failure entry (R127), the consuming
primitive Take (R70), the output ports (R43, R48), entering and closing a body (R81, R86). -/

namespace Sys2Proof.Machine

/-! ### Register and port updates -/

/-- `reg.ACC <- v` (R15). -/
def State.setAcc (v : BitVec 64) (s : State) : State := { s with acc := v }

/-- `reg.CNT <- v` (R16). -/
def State.setCnt (v : BitVec 32) (s : State) : State := { s with cnt := v }

/-- `reg.LEN <- v` (R16). -/
def State.setLen (v : BitVec 32) (s : State) : State := { s with len := v }

/-- `reg.HDR <- h`, all three fields at once (R13). -/
def State.setHdr (h : Hdr) (s : State) : State := { s with hdr := h }

/-- `reg.BLK <- b` (R19). -/
def State.setBlk (b : Body) (s : State) : State := { s with blk := b }

/-- `reg.PHASE <- p` (R12). -/
def State.setPhase (p : Phase) (s : State) : State := { s with phase := p }

/-- The registers `Take(n)` moves when it succeeds: CURSOR by `n`, and in a body BODY_REM by `n` (R70). -/
def State.advance (n : Nat) (s : State) : State :=
  { s with
    cursor := s.cursor + n
    bodyRem := if s.phase = .body then s.bodyRem - BitVec.ofNat 24 n else s.bodyRem }

/-- Entering a body: BODY_REM, BLK and PHASE (R81). -/
def State.enterBody (s : State) : State :=
  { s with bodyRem := s.hdr.length, blk := .empty, phase := .body }

/-- `MemWrite(EVT, rec)`: one record more on the reporting output (R43). -/
def State.emit (b : Block) (s : State) : State := { s with evt := s.evt ++ [b] }

/-- The Payload Sink resource is acquired or released (R22 (b), R48). -/
def State.holdSink (held : Bool) (s : State) : State := { s with sinkHeld := held }

/-- One complete payload more on PAY, and the draw that answers it counted (R48, R109). -/
def State.payOut (payload : List Byte) (s : State) : State :=
  { s with pay := s.pay ++ [payload], draws := s.draws + 1 }

/-- Failure entry, the whole of `raise Kind(cause, info)` (R127): ERR is written, PHASE is FAILED, BLK is empty. The
registers that are "not defined" after it take free values (log 6). There is no return from it (R129): no operation
undoes it but reset. -/
def State.failureEntry (r : Reason) (info : BitVec 32) (s : State) : State :=
  { s with
    err := ⟨r, info⟩
    phase := .failed
    blk := .empty
    cursor := (Config.failedCursor s.draws).toNat
    hdr := ⟨Config.failedIsLast s.draws, Config.failedBlockType s.draws, Config.failedLength s.draws⟩
    bodyRem := Config.failedBodyRem s.draws
    acc := Config.failedAcc s.draws
    cnt := Config.failedCnt s.draws
    len := Config.failedLen s.draws
    draws := s.draws + 1 }

/-! ### Micro-operations -/

/-- A micro-operation: a value and the next state, or the state a `raise` inside it left behind, which ends the whole
step (R114: "Every `raise` inside a step ends the step"). -/
abbrev Op (α : Type) := StateT State (Except State) α

/-- An operation that only updates the state. -/
def update (f : State → State) : Op Unit := fun s => .ok ((), f s)

/-- An operation that only reads the state. -/
def look {α : Type} (f : State → α) : Op α := fun s => .ok (f s, s)

/-- `raise Kind(cause, info)` (R127). -/
def raise {α : Type} (r : Reason) (info : BitVec 32) : Op α := fun s => .error (s.failureEntry r info)

/-- `MemRead(addr, n)`: the `n` bytes from offset `addr`, or the end-of-stream condition when `addr + n > N` (R31). -/
def memRead (m : Memory) (addr n : Nat) : Option (List Byte) :=
  if addr + n ≤ m.length then some ((m.drop addr).take n) else none

/-- `where(PHASE)` of R70. Nothing is read in DONE or FAILED (log 12). -/
def readPlace : Phase → TruncatedCause
  | .sig => .inSignature
  | .header => .inHeader
  | .body => .inBody
  | .done => .inBody
  | .failed => .inBody

/-- `Take(n)` (R70): the body window is checked first, then the stream; then `n` bytes are consumed. -/
def take (n : Nat) : Op (List Byte) := fun s =>
  if s.phase = .body ∧ s.bodyRem.toNat < n then
    .error (s.failureEntry (.format .bodyOverread) (BitVec.ofNat 32 n))
  else
    match memRead s.inp s.cursor n with
    | none => .error (s.failureEntry (.truncated (readPlace s.phase)) 0)
    | some b => .ok (b, s.advance n)

/-- `MemWrite(PAY, payload)`: the sink is acquired, written once and released, and answers with one `Ref` (R48, R109). -/
def memWritePay (payload : List Byte) : Op Ref := do
  update (State.holdSink true)
  let ref ← look fun s => Config.paySink s.draws payload
  update (State.payOut payload)
  update (State.holdSink false)
  pure ref

/-- `reg.CNT <- reg.CNT - 1` (R92, R100). -/
def decCnt : Op Unit := update fun s => s.setCnt (s.cnt - 1)

/-- The counted loop of R92 and R100, `n` items still to read: `while reg.CNT > 0 do read an item; reg.CNT <- reg.CNT - 1`.
It is started with `n` = CNT, and CNT stays the number of items left. -/
def countLoop {α : Type} (item : Op α) : Nat → Op (List α)
  | 0 => pure []
  | n + 1 => do
    let x ← item
    decCnt
    let xs ← countLoop item n
    pure (x :: xs)

/-- Runs an operation that is enabled in phase `p` only, as one whole step: whatever it raises is the next state. -/
def runIn (p : Phase) (op : Op Unit) (s : State) : Host.Outcome State Fault Refusal :=
  if s.phase = p then
    match op s with
    | .ok (_, t) => .next t
    | .error t => .next t
  else .fault .notEnabled

/-! ### The host's side of a decode (R25, R140, R142, R148) -/

/-- The start of a decode attempt on stream `m`: reset, with the stream in place (R140, R142). Also the only way out of
DONE and FAILED (R148). Log 13, 14. -/
def State.launch (m : Memory) : State := { State.reset with inp := m }

end Sys2Proof.Machine
end

