-- ==== Sys2Proof/Machine/Flags.lean ====
section
/-! DEFINITION. The one flag, `HDR.is_last` (10_state.md R18), who writes it and who reads it; and the numbers of PHASE and ERR
that the STATUS port mirrors (R12, R17, R26, R124). -/

namespace Sys2Proof.Machine

/-- The field writes of HDRDEC (R80): the header triple, the flag among it. -/
def writeHdr (isLast : Bool) (t : BitVec 7) (length : BitVec 24) : Op Unit :=
  update (State.setHdr ⟨isLast, t, length⟩)

/-- What CLOSE makes of the flag: the phase after a block that closed (R86). -/
def phaseAfterClose (isLast : Bool) : Phase := if isLast then .done else .header

/-- The 3-bit encoding of PHASE (R12). -/
def Phase.code : Phase → BitVec 3
  | .sig => 0
  | .header => 1
  | .body => 2
  | .done => 3
  | .failed => 4

/-- `ERR.kind` (R124). -/
def Err.kindCode (e : Err) : BitVec 2 :=
  match e.reason with
  | .none => 0
  | .format _ => 1
  | .unsupported _ => 2
  | .truncated _ => 3

/-- `ERR.cause` (R124). -/
def Err.causeCode (e : Err) : BitVec 3 :=
  match e.reason with
  | .none => 0
  | .format .badSignature => 1
  | .format .badPictureType => 2
  | .format .bodyOverread => 3
  | .format .bodyUnderread => 4
  | .unsupported .application => 1
  | .unsupported .cuesheet => 2
  | .unsupported .invalid => 3
  | .unsupported .reserved => 4
  | .truncated .inSignature => 1
  | .truncated .inHeader => 2
  | .truncated .inBody => 3

/-- What the host can read: the STATUS port, phase, error kind, cause and info (R25, R26). -/
def State.status (s : State) : BitVec 3 × BitVec 2 × BitVec 3 × BitVec 32 :=
  (s.phase.code, s.err.kindCode, s.err.causeCode, s.err.info)

end Sys2Proof.Machine
end

