-- ==== Sys2Proof/Machine/Operands.lean ====
section
/-! DEFINITION. The operand forms: the Bit-Width Reader (40_reader.md R71 to R75) and the length-prefixed strings
(R101, R107). -/

namespace Sys2Proof.Machine

/-- The widths the reader accepts: "a positive multiple of 8, between 8 and 64 inclusive" (R75). No other width can be
asked for (U1). -/
inductive Width where
  | w8
  | w16
  | w24
  | w32
  | w40
  | w48
  | w56
  | w64
deriving DecidableEq, Repr

/-- `bits / 8` of a width (R71). -/
def Width.bytes : Width → Nat
  | .w8 => 1
  | .w16 => 2
  | .w24 => 3
  | .w32 => 4
  | .w40 => 5
  | .w48 => 6
  | .w56 => 7
  | .w64 => 8

/-- `READ_BE(bits)` (R71). -/
def readBE (w : Width) : Op Nat := do
  let b ← take w.bytes
  update (State.setAcc (BitVec.ofNat 64 (beNat b)))
  pure (beNat b)

/-- `READ_LE(bits)` (R72). -/
def readLE (w : Width) : Op Nat := do
  let b ← take w.bytes
  update (State.setAcc (BitVec.ofNat 64 (leNat b)))
  pure (leNat b)

/-- `READ_BYTES(n)` (R73): ACC is not written. -/
def readBytes (n : Nat) : Op (List Byte) := take n

/-- `SKIP(n)` (R74): the bytes are dropped, ACC is not written. -/
def skip (n : Nat) : Op Unit := do
  let _ ← take n
  pure ()

/-- `READ_BYTES(reg.LEN)` after `reg.LEN <- v`: the string whose prefix has been read (R101, R107). -/
def stringOfLen (v : Nat) : Op (List Byte) := do
  update (State.setLen (BitVec.ofNat 32 v))
  let n ← look State.len
  readBytes n.toNat

/-- `LSTR_LE` (R101). -/
def lstrLE : Op (List Byte) := do
  let v ← readLE .w32
  stringOfLen v

/-- `LSTR_BE` (R107). -/
def lstrBE : Op (List Byte) := do
  let v ← readBE .w32
  stringOfLen v

end Sys2Proof.Machine
end

