-- ==== Sys2Proof/Machine/Blocks.lean ====
section
/-! DEFINITION. What every block does around its body: the header word (HDRDEC, R80), entering the body (DISPATCH, R81), the framing check
(CLOSE, R86), and the rejection of a type without a parser (R82 to R85). -/

namespace Sys2Proof.Machine

/-- The read of HDRDEC, `w <- READ_BE(32)` (R80). The word's fields go to HDR when its instruction runs, at once. -/
def fetchHeader : Op (BitVec 32) := do
  let v ← readBE .w32
  pure (BitVec.ofNat 32 v)

/-- `CLOSE` (R86): a body with bytes left over is a FormatError; otherwise the record is emitted and the last-flag
decides whether the decode goes on. -/
def close : Op Unit := fun s =>
  if s.bodyRem ≠ 0 then
    .error (s.failureEntry (.format .bodyUnderread) (s.bodyRem.setWidth 32))
  else
    .ok ((), ((s.emit ⟨s.hdr.isLast, s.hdr.blockType, s.hdr.length, s.blk⟩).setBlk .empty).setPhase
      (phaseAfterClose s.hdr.isLast))

/-- A block of a supported type: the header triple, the body window, the parser, the framing check (R80, R81, R86). -/
def decodeBlock (t : BitVec 7) (isLast : Bool) (length : BitVec 24) (parser : Op Unit) : Op Unit := do
  writeHdr isLast t length
  update State.enterBody
  parser
  close

/-- A block of a type without a parser: UnsupportedBlockError with the code found, "before BODY_REM is loaded and before
any body byte is read" (R81). -/
def rejectBlock (cause : UnsupportedCause) (t : BitVec 7) (isLast : Bool) (length : BitVec 24) : Op Unit := do
  writeHdr isLast t length
  raise (.unsupported cause) (t.setWidth 32)

end Sys2Proof.Machine
end

