-- ==== Sys2Proof/Machine/FixedBlocks.lean ====
section
/-! DEFINITION. STREAMINFO, PADDING and SEEKTABLE (42_streaminfo_padding_seektable.md R90 to R93). -/

namespace Sys2Proof.Machine

/-- The StreamInfo parser (R90). BLK is written when its last field has been read (log 11). -/
def parseStreamInfo : Op Unit := do
  let minBlockSize ← readBE .w16
  let maxBlockSize ← readBE .w16
  let minFrameSize ← readBE .w24
  let maxFrameSize ← readBE .w24
  let packed ← readBE .w64
  let checksum ← readBytes Config.checksumBytes
  update (State.setBlk (.streamInfo
    { minBlockSize := BitVec.ofNat 16 minBlockSize
      maxBlockSize := BitVec.ofNat 16 maxBlockSize
      minFrameSize := BitVec.ofNat 24 minFrameSize
      maxFrameSize := BitVec.ofNat 24 maxFrameSize
      packed := BitVec.ofNat 64 packed
      checksum := checksum }))

/-- STREAMINFO, type code 0 (R90). -/
def execStreaminfo (isLast : Bool) (length : BitVec 24) (s : State) : Host.Outcome State Fault Refusal :=
  runIn .header (decodeBlock 0 isLast length parseStreamInfo) s

/-- The Padding parser: one skip of `HDR.length` bytes; BLK stays empty (R91). -/
def parsePadding : Op Unit := do
  let h ← look State.hdr
  skip h.length.toNat

/-- PADDING, type code 1 (R91). -/
def execPadding (isLast : Bool) (length : BitVec 24) (s : State) : Host.Outcome State Fault Refusal :=
  runIn .header (decodeBlock 1 isLast length parsePadding) s

/-- One seek point, big-endian (R58, R92). -/
def readPoint : Op SeekPoint := do
  let s ← readBE .w64
  let o ← readBE .w64
  let f ← readBE .w16
  pure { sampleNumber := BitVec.ofNat 64 s, byteOffset := BitVec.ofNat 64 o, frameSamples := BitVec.ofNat 16 f }

/-- The SeekTable parser: `length div 18` points; the remainder is left for CLOSE to find (R92, R93). -/
def parseSeekTable : Op Unit := do
  let h ← look State.hdr
  update (State.setCnt (BitVec.ofNat 32 (h.length.toNat / Config.seekPointBytes)))
  let n ← look State.cnt
  let points ← countLoop readPoint n.toNat
  update (State.setBlk (.seekTable { points := points }))

/-- SEEKTABLE, type code 3 (R92). -/
def execSeektable (isLast : Bool) (length : BitVec 24) (s : State) : Host.Outcome State Fault Refusal :=
  runIn .header (decodeBlock 3 isLast length parseSeekTable) s

end Sys2Proof.Machine
end

