-- ==== Sys2Proof/Machine/Picture.lean ====
section
/-! DEFINITION. PICTURE (44_picture.md R105 to R109). -/

namespace Sys2Proof.Machine

/-- `CATEGORY(t)` (R106): a code above 20 is a FormatError with the code in `info`. -/
def checkCategory (t : Nat) : Op Unit :=
  if Config.picTypeMax < t then raise (.format .badPictureType) (BitVec.ofNat 32 t) else pure ()

/-- The category name of a code, for the line-sink (R63). -/
def categoryName (t : Nat) : Option String := Config.pictureCategories[t]?

/-- The Picture parser (R105): the payload goes to PAY after all of its bytes have been read and before CLOSE (R109). -/
def parsePicture : Op Unit := do
  let t ← readBE .w32
  checkCategory t
  let mime ← lstrBE
  let description ← lstrBE
  skip Config.geometryBytes
  let v ← readBE .w32
  let payload ← stringOfLen v
  let payloadLength ← look State.len
  let ref ← memWritePay payload
  update (State.setBlk (.picture
    { pictureType := BitVec.ofNat 32 t
      mime := mime
      description := description
      payloadLength := payloadLength
      ref := ref }))

/-- PICTURE, type code 6 (R105). -/
def execPicture (isLast : Bool) (length : BitVec 24) (s : State) : Host.Outcome State Fault Refusal :=
  runIn .header (decodeBlock 6 isLast length parsePicture) s

end Sys2Proof.Machine
end

