-- ==== Sys2Proof/Machine/Reserved.lean ====
section
/-! DEFINITION. RESERVED_7 to RESERVED_126 (41_header_dispatch.md R85): "All 120 codes behave alike." Each raises
UnsupportedBlockError(RESERVED, t) at dispatch, with its own code `t`; no body byte is read. -/

namespace Sys2Proof.Machine

/-- The shared meaning of a reserved code `t` (R85). -/
def rejectReserved (t : BitVec 7) (isLast : Bool) (length : BitVec 24) (s : State) :
    Host.Outcome State Fault Refusal :=
  runIn .header (rejectBlock .reserved t isLast length) s

def execReserved7 (isLast : Bool) (length : BitVec 24) (s : State) : Host.Outcome State Fault Refusal :=
  rejectReserved 7 isLast length s
def execReserved8 (isLast : Bool) (length : BitVec 24) (s : State) : Host.Outcome State Fault Refusal :=
  rejectReserved 8 isLast length s
def execReserved9 (isLast : Bool) (length : BitVec 24) (s : State) : Host.Outcome State Fault Refusal :=
  rejectReserved 9 isLast length s
def execReserved10 (isLast : Bool) (length : BitVec 24) (s : State) : Host.Outcome State Fault Refusal :=
  rejectReserved 10 isLast length s
def execReserved11 (isLast : Bool) (length : BitVec 24) (s : State) : Host.Outcome State Fault Refusal :=
  rejectReserved 11 isLast length s
def execReserved12 (isLast : Bool) (length : BitVec 24) (s : State) : Host.Outcome State Fault Refusal :=
  rejectReserved 12 isLast length s
def execReserved13 (isLast : Bool) (length : BitVec 24) (s : State) : Host.Outcome State Fault Refusal :=
  rejectReserved 13 isLast length s
def execReserved14 (isLast : Bool) (length : BitVec 24) (s : State) : Host.Outcome State Fault Refusal :=
  rejectReserved 14 isLast length s
def execReserved15 (isLast : Bool) (length : BitVec 24) (s : State) : Host.Outcome State Fault Refusal :=
  rejectReserved 15 isLast length s
def execReserved16 (isLast : Bool) (length : BitVec 24) (s : State) : Host.Outcome State Fault Refusal :=
  rejectReserved 16 isLast length s
def execReserved17 (isLast : Bool) (length : BitVec 24) (s : State) : Host.Outcome State Fault Refusal :=
  rejectReserved 17 isLast length s
def execReserved18 (isLast : Bool) (length : BitVec 24) (s : State) : Host.Outcome State Fault Refusal :=
  rejectReserved 18 isLast length s
def execReserved19 (isLast : Bool) (length : BitVec 24) (s : State) : Host.Outcome State Fault Refusal :=
  rejectReserved 19 isLast length s
def execReserved20 (isLast : Bool) (length : BitVec 24) (s : State) : Host.Outcome State Fault Refusal :=
  rejectReserved 20 isLast length s
def execReserved21 (isLast : Bool) (length : BitVec 24) (s : State) : Host.Outcome State Fault Refusal :=
  rejectReserved 21 isLast length s
def execReserved22 (isLast : Bool) (length : BitVec 24) (s : State) : Host.Outcome State Fault Refusal :=
  rejectReserved 22 isLast length s
def execReserved23 (isLast : Bool) (length : BitVec 24) (s : State) : Host.Outcome State Fault Refusal :=
  rejectReserved 23 isLast length s
def execReserved24 (isLast : Bool) (length : BitVec 24) (s : State) : Host.Outcome State Fault Refusal :=
  rejectReserved 24 isLast length s
def execReserved25 (isLast : Bool) (length : BitVec 24) (s : State) : Host.Outcome State Fault Refusal :=
  rejectReserved 25 isLast length s
def execReserved26 (isLast : Bool) (length : BitVec 24) (s : State) : Host.Outcome State Fault Refusal :=
  rejectReserved 26 isLast length s
def execReserved27 (isLast : Bool) (length : BitVec 24) (s : State) : Host.Outcome State Fault Refusal :=
  rejectReserved 27 isLast length s
def execReserved28 (isLast : Bool) (length : BitVec 24) (s : State) : Host.Outcome State Fault Refusal :=
  rejectReserved 28 isLast length s
def execReserved29 (isLast : Bool) (length : BitVec 24) (s : State) : Host.Outcome State Fault Refusal :=
  rejectReserved 29 isLast length s
def execReserved30 (isLast : Bool) (length : BitVec 24) (s : State) : Host.Outcome State Fault Refusal :=
  rejectReserved 30 isLast length s
def execReserved31 (isLast : Bool) (length : BitVec 24) (s : State) : Host.Outcome State Fault Refusal :=
  rejectReserved 31 isLast length s
def execReserved32 (isLast : Bool) (length : BitVec 24) (s : State) : Host.Outcome State Fault Refusal :=
  rejectReserved 32 isLast length s
def execReserved33 (isLast : Bool) (length : BitVec 24) (s : State) : Host.Outcome State Fault Refusal :=
  rejectReserved 33 isLast length s
def execReserved34 (isLast : Bool) (length : BitVec 24) (s : State) : Host.Outcome State Fault Refusal :=
  rejectReserved 34 isLast length s
def execReserved35 (isLast : Bool) (length : BitVec 24) (s : State) : Host.Outcome State Fault Refusal :=
  rejectReserved 35 isLast length s
def execReserved36 (isLast : Bool) (length : BitVec 24) (s : State) : Host.Outcome State Fault Refusal :=
  rejectReserved 36 isLast length s
def execReserved37 (isLast : Bool) (length : BitVec 24) (s : State) : Host.Outcome State Fault Refusal :=
  rejectReserved 37 isLast length s
def execReserved38 (isLast : Bool) (length : BitVec 24) (s : State) : Host.Outcome State Fault Refusal :=
  rejectReserved 38 isLast length s
def execReserved39 (isLast : Bool) (length : BitVec 24) (s : State) : Host.Outcome State Fault Refusal :=
  rejectReserved 39 isLast length s
def execReserved40 (isLast : Bool) (length : BitVec 24) (s : State) : Host.Outcome State Fault Refusal :=
  rejectReserved 40 isLast length s
def execReserved41 (isLast : Bool) (length : BitVec 24) (s : State) : Host.Outcome State Fault Refusal :=
  rejectReserved 41 isLast length s
def execReserved42 (isLast : Bool) (length : BitVec 24) (s : State) : Host.Outcome State Fault Refusal :=
  rejectReserved 42 isLast length s
def execReserved43 (isLast : Bool) (length : BitVec 24) (s : State) : Host.Outcome State Fault Refusal :=
  rejectReserved 43 isLast length s
def execReserved44 (isLast : Bool) (length : BitVec 24) (s : State) : Host.Outcome State Fault Refusal :=
  rejectReserved 44 isLast length s
def execReserved45 (isLast : Bool) (length : BitVec 24) (s : State) : Host.Outcome State Fault Refusal :=
  rejectReserved 45 isLast length s
def execReserved46 (isLast : Bool) (length : BitVec 24) (s : State) : Host.Outcome State Fault Refusal :=
  rejectReserved 46 isLast length s
def execReserved47 (isLast : Bool) (length : BitVec 24) (s : State) : Host.Outcome State Fault Refusal :=
  rejectReserved 47 isLast length s
def execReserved48 (isLast : Bool) (length : BitVec 24) (s : State) : Host.Outcome State Fault Refusal :=
  rejectReserved 48 isLast length s
def execReserved49 (isLast : Bool) (length : BitVec 24) (s : State) : Host.Outcome State Fault Refusal :=
  rejectReserved 49 isLast length s
def execReserved50 (isLast : Bool) (length : BitVec 24) (s : State) : Host.Outcome State Fault Refusal :=
  rejectReserved 50 isLast length s
def execReserved51 (isLast : Bool) (length : BitVec 24) (s : State) : Host.Outcome State Fault Refusal :=
  rejectReserved 51 isLast length s
def execReserved52 (isLast : Bool) (length : BitVec 24) (s : State) : Host.Outcome State Fault Refusal :=
  rejectReserved 52 isLast length s
def execReserved53 (isLast : Bool) (length : BitVec 24) (s : State) : Host.Outcome State Fault Refusal :=
  rejectReserved 53 isLast length s
def execReserved54 (isLast : Bool) (length : BitVec 24) (s : State) : Host.Outcome State Fault Refusal :=
  rejectReserved 54 isLast length s
def execReserved55 (isLast : Bool) (length : BitVec 24) (s : State) : Host.Outcome State Fault Refusal :=
  rejectReserved 55 isLast length s
def execReserved56 (isLast : Bool) (length : BitVec 24) (s : State) : Host.Outcome State Fault Refusal :=
  rejectReserved 56 isLast length s
def execReserved57 (isLast : Bool) (length : BitVec 24) (s : State) : Host.Outcome State Fault Refusal :=
  rejectReserved 57 isLast length s
def execReserved58 (isLast : Bool) (length : BitVec 24) (s : State) : Host.Outcome State Fault Refusal :=
  rejectReserved 58 isLast length s
def execReserved59 (isLast : Bool) (length : BitVec 24) (s : State) : Host.Outcome State Fault Refusal :=
  rejectReserved 59 isLast length s
def execReserved60 (isLast : Bool) (length : BitVec 24) (s : State) : Host.Outcome State Fault Refusal :=
  rejectReserved 60 isLast length s
def execReserved61 (isLast : Bool) (length : BitVec 24) (s : State) : Host.Outcome State Fault Refusal :=
  rejectReserved 61 isLast length s
def execReserved62 (isLast : Bool) (length : BitVec 24) (s : State) : Host.Outcome State Fault Refusal :=
  rejectReserved 62 isLast length s
def execReserved63 (isLast : Bool) (length : BitVec 24) (s : State) : Host.Outcome State Fault Refusal :=
  rejectReserved 63 isLast length s
def execReserved64 (isLast : Bool) (length : BitVec 24) (s : State) : Host.Outcome State Fault Refusal :=
  rejectReserved 64 isLast length s
def execReserved65 (isLast : Bool) (length : BitVec 24) (s : State) : Host.Outcome State Fault Refusal :=
  rejectReserved 65 isLast length s
def execReserved66 (isLast : Bool) (length : BitVec 24) (s : State) : Host.Outcome State Fault Refusal :=
  rejectReserved 66 isLast length s
def execReserved67 (isLast : Bool) (length : BitVec 24) (s : State) : Host.Outcome State Fault Refusal :=
  rejectReserved 67 isLast length s
def execReserved68 (isLast : Bool) (length : BitVec 24) (s : State) : Host.Outcome State Fault Refusal :=
  rejectReserved 68 isLast length s
def execReserved69 (isLast : Bool) (length : BitVec 24) (s : State) : Host.Outcome State Fault Refusal :=
  rejectReserved 69 isLast length s
def execReserved70 (isLast : Bool) (length : BitVec 24) (s : State) : Host.Outcome State Fault Refusal :=
  rejectReserved 70 isLast length s
def execReserved71 (isLast : Bool) (length : BitVec 24) (s : State) : Host.Outcome State Fault Refusal :=
  rejectReserved 71 isLast length s
def execReserved72 (isLast : Bool) (length : BitVec 24) (s : State) : Host.Outcome State Fault Refusal :=
  rejectReserved 72 isLast length s
def execReserved73 (isLast : Bool) (length : BitVec 24) (s : State) : Host.Outcome State Fault Refusal :=
  rejectReserved 73 isLast length s
def execReserved74 (isLast : Bool) (length : BitVec 24) (s : State) : Host.Outcome State Fault Refusal :=
  rejectReserved 74 isLast length s
def execReserved75 (isLast : Bool) (length : BitVec 24) (s : State) : Host.Outcome State Fault Refusal :=
  rejectReserved 75 isLast length s
def execReserved76 (isLast : Bool) (length : BitVec 24) (s : State) : Host.Outcome State Fault Refusal :=
  rejectReserved 76 isLast length s
def execReserved77 (isLast : Bool) (length : BitVec 24) (s : State) : Host.Outcome State Fault Refusal :=
  rejectReserved 77 isLast length s
def execReserved78 (isLast : Bool) (length : BitVec 24) (s : State) : Host.Outcome State Fault Refusal :=
  rejectReserved 78 isLast length s
def execReserved79 (isLast : Bool) (length : BitVec 24) (s : State) : Host.Outcome State Fault Refusal :=
  rejectReserved 79 isLast length s
def execReserved80 (isLast : Bool) (length : BitVec 24) (s : State) : Host.Outcome State Fault Refusal :=
  rejectReserved 80 isLast length s
def execReserved81 (isLast : Bool) (length : BitVec 24) (s : State) : Host.Outcome State Fault Refusal :=
  rejectReserved 81 isLast length s
def execReserved82 (isLast : Bool) (length : BitVec 24) (s : State) : Host.Outcome State Fault Refusal :=
  rejectReserved 82 isLast length s
def execReserved83 (isLast : Bool) (length : BitVec 24) (s : State) : Host.Outcome State Fault Refusal :=
  rejectReserved 83 isLast length s
def execReserved84 (isLast : Bool) (length : BitVec 24) (s : State) : Host.Outcome State Fault Refusal :=
  rejectReserved 84 isLast length s
def execReserved85 (isLast : Bool) (length : BitVec 24) (s : State) : Host.Outcome State Fault Refusal :=
  rejectReserved 85 isLast length s
def execReserved86 (isLast : Bool) (length : BitVec 24) (s : State) : Host.Outcome State Fault Refusal :=
  rejectReserved 86 isLast length s
def execReserved87 (isLast : Bool) (length : BitVec 24) (s : State) : Host.Outcome State Fault Refusal :=
  rejectReserved 87 isLast length s
def execReserved88 (isLast : Bool) (length : BitVec 24) (s : State) : Host.Outcome State Fault Refusal :=
  rejectReserved 88 isLast length s
def execReserved89 (isLast : Bool) (length : BitVec 24) (s : State) : Host.Outcome State Fault Refusal :=
  rejectReserved 89 isLast length s
def execReserved90 (isLast : Bool) (length : BitVec 24) (s : State) : Host.Outcome State Fault Refusal :=
  rejectReserved 90 isLast length s
def execReserved91 (isLast : Bool) (length : BitVec 24) (s : State) : Host.Outcome State Fault Refusal :=
  rejectReserved 91 isLast length s
def execReserved92 (isLast : Bool) (length : BitVec 24) (s : State) : Host.Outcome State Fault Refusal :=
  rejectReserved 92 isLast length s
def execReserved93 (isLast : Bool) (length : BitVec 24) (s : State) : Host.Outcome State Fault Refusal :=
  rejectReserved 93 isLast length s
def execReserved94 (isLast : Bool) (length : BitVec 24) (s : State) : Host.Outcome State Fault Refusal :=
  rejectReserved 94 isLast length s
def execReserved95 (isLast : Bool) (length : BitVec 24) (s : State) : Host.Outcome State Fault Refusal :=
  rejectReserved 95 isLast length s
def execReserved96 (isLast : Bool) (length : BitVec 24) (s : State) : Host.Outcome State Fault Refusal :=
  rejectReserved 96 isLast length s
def execReserved97 (isLast : Bool) (length : BitVec 24) (s : State) : Host.Outcome State Fault Refusal :=
  rejectReserved 97 isLast length s
def execReserved98 (isLast : Bool) (length : BitVec 24) (s : State) : Host.Outcome State Fault Refusal :=
  rejectReserved 98 isLast length s
def execReserved99 (isLast : Bool) (length : BitVec 24) (s : State) : Host.Outcome State Fault Refusal :=
  rejectReserved 99 isLast length s
def execReserved100 (isLast : Bool) (length : BitVec 24) (s : State) : Host.Outcome State Fault Refusal :=
  rejectReserved 100 isLast length s
def execReserved101 (isLast : Bool) (length : BitVec 24) (s : State) : Host.Outcome State Fault Refusal :=
  rejectReserved 101 isLast length s
def execReserved102 (isLast : Bool) (length : BitVec 24) (s : State) : Host.Outcome State Fault Refusal :=
  rejectReserved 102 isLast length s
def execReserved103 (isLast : Bool) (length : BitVec 24) (s : State) : Host.Outcome State Fault Refusal :=
  rejectReserved 103 isLast length s
def execReserved104 (isLast : Bool) (length : BitVec 24) (s : State) : Host.Outcome State Fault Refusal :=
  rejectReserved 104 isLast length s
def execReserved105 (isLast : Bool) (length : BitVec 24) (s : State) : Host.Outcome State Fault Refusal :=
  rejectReserved 105 isLast length s
def execReserved106 (isLast : Bool) (length : BitVec 24) (s : State) : Host.Outcome State Fault Refusal :=
  rejectReserved 106 isLast length s
def execReserved107 (isLast : Bool) (length : BitVec 24) (s : State) : Host.Outcome State Fault Refusal :=
  rejectReserved 107 isLast length s
def execReserved108 (isLast : Bool) (length : BitVec 24) (s : State) : Host.Outcome State Fault Refusal :=
  rejectReserved 108 isLast length s
def execReserved109 (isLast : Bool) (length : BitVec 24) (s : State) : Host.Outcome State Fault Refusal :=
  rejectReserved 109 isLast length s
def execReserved110 (isLast : Bool) (length : BitVec 24) (s : State) : Host.Outcome State Fault Refusal :=
  rejectReserved 110 isLast length s
def execReserved111 (isLast : Bool) (length : BitVec 24) (s : State) : Host.Outcome State Fault Refusal :=
  rejectReserved 111 isLast length s
def execReserved112 (isLast : Bool) (length : BitVec 24) (s : State) : Host.Outcome State Fault Refusal :=
  rejectReserved 112 isLast length s
def execReserved113 (isLast : Bool) (length : BitVec 24) (s : State) : Host.Outcome State Fault Refusal :=
  rejectReserved 113 isLast length s
def execReserved114 (isLast : Bool) (length : BitVec 24) (s : State) : Host.Outcome State Fault Refusal :=
  rejectReserved 114 isLast length s
def execReserved115 (isLast : Bool) (length : BitVec 24) (s : State) : Host.Outcome State Fault Refusal :=
  rejectReserved 115 isLast length s
def execReserved116 (isLast : Bool) (length : BitVec 24) (s : State) : Host.Outcome State Fault Refusal :=
  rejectReserved 116 isLast length s
def execReserved117 (isLast : Bool) (length : BitVec 24) (s : State) : Host.Outcome State Fault Refusal :=
  rejectReserved 117 isLast length s
def execReserved118 (isLast : Bool) (length : BitVec 24) (s : State) : Host.Outcome State Fault Refusal :=
  rejectReserved 118 isLast length s
def execReserved119 (isLast : Bool) (length : BitVec 24) (s : State) : Host.Outcome State Fault Refusal :=
  rejectReserved 119 isLast length s
def execReserved120 (isLast : Bool) (length : BitVec 24) (s : State) : Host.Outcome State Fault Refusal :=
  rejectReserved 120 isLast length s
def execReserved121 (isLast : Bool) (length : BitVec 24) (s : State) : Host.Outcome State Fault Refusal :=
  rejectReserved 121 isLast length s
def execReserved122 (isLast : Bool) (length : BitVec 24) (s : State) : Host.Outcome State Fault Refusal :=
  rejectReserved 122 isLast length s
def execReserved123 (isLast : Bool) (length : BitVec 24) (s : State) : Host.Outcome State Fault Refusal :=
  rejectReserved 123 isLast length s
def execReserved124 (isLast : Bool) (length : BitVec 24) (s : State) : Host.Outcome State Fault Refusal :=
  rejectReserved 124 isLast length s
def execReserved125 (isLast : Bool) (length : BitVec 24) (s : State) : Host.Outcome State Fault Refusal :=
  rejectReserved 125 isLast length s
def execReserved126 (isLast : Bool) (length : BitVec 24) (s : State) : Host.Outcome State Fault Refusal :=
  rejectReserved 126 isLast length s

end Sys2Proof.Machine
end

