-- ==== Sys2Proof/Machine/Signature.lean ====
section
/-! DEFINITION. SIG, the signature check (45_toplevel.md R113). -/

namespace Sys2Proof.Machine

/-- `SIGCHECK` (R113): all four bytes are obtained, then compared (log 20). -/
def sigCheck : Op Unit := do
  let b ← readBytes 4
  if b = Config.signature then update (State.setPhase .header)
  else raise (.format .badSignature) (BitVec.ofNat 32 (beNat b))

/-- SIG: enabled only in phase SIG (R113). -/
def execSig (s : State) : Host.Outcome State Fault Refusal := runIn .sig sigCheck s

end Sys2Proof.Machine
end

