-- ==== Sys2Proof/Machine/Unsupported.lean ====
section
/-! DEFINITION. APPLICATION, CUESHEET and INVALID (41_header_dispatch.md R82 to R84): the failure is their whole meaning. -/

namespace Sys2Proof.Machine

/-- APPLICATION, type code 2 (R82). -/
def execApplication (isLast : Bool) (length : BitVec 24) (s : State) : Host.Outcome State Fault Refusal :=
  runIn .header (rejectBlock .application 2 isLast length) s

/-- CUESHEET, type code 5 (R83). -/
def execCuesheet (isLast : Bool) (length : BitVec 24) (s : State) : Host.Outcome State Fault Refusal :=
  runIn .header (rejectBlock .cuesheet 5 isLast length) s

/-- INVALID, type code 127 (R84). -/
def execInvalid (isLast : Bool) (length : BitVec 24) (s : State) : Host.Outcome State Fault Refusal :=
  runIn .header (rejectBlock .invalid 127 isLast length) s

end Sys2Proof.Machine
end

