-- ==== Sys2Proof/Machine/VorbisComment.lean ====
section
/-! DEFINITION. VORBISCOMMENT (43_vorbiscomment.md R100 to R102). -/

namespace Sys2Proof.Machine

/-- The VorbisComment parser: vendor string, little-endian count, that many strings, all bytes as they are (R100,
R102). -/
def parseVorbisComment : Op Unit := do
  let vendor ← lstrLE
  let count ← readLE .w32
  update (State.setCnt (BitVec.ofNat 32 count))
  let n ← look State.cnt
  let comments ← countLoop lstrLE n.toNat
  update (State.setBlk (.vorbisComment { vendor := vendor, comments := comments }))

/-- VORBISCOMMENT, type code 4 (R100). -/
def execVorbiscomment (isLast : Bool) (length : BitVec 24) (s : State) : Host.Outcome State Fault Refusal :=
  runIn .header (decodeBlock 4 isLast length parseVorbisComment) s

end Sys2Proof.Machine
end

