-- ==== Sys2Proof/Machine/Dispatch.lean ====
section
/-! DEFINITION. DISPATCH (41_header_dispatch.md R81): one arm per constructor, one meaning each. -/

namespace Sys2Proof.Machine

/-- The meaning of each instruction, in the state right after its header word was read (HDRDEC, R80); for SIG, in the
state before any byte is read (R113). -/
def exec (i : Instr) (s : State) : Host.Outcome State Fault Refusal :=
  match i with
  | .sig => Sys2Proof.Machine.execSig s
  | .streaminfo isLast length => Sys2Proof.Machine.execStreaminfo isLast length s
  | .padding isLast length => Sys2Proof.Machine.execPadding isLast length s
  | .application isLast length => Sys2Proof.Machine.execApplication isLast length s
  | .seektable isLast length => Sys2Proof.Machine.execSeektable isLast length s
  | .vorbiscomment isLast length => Sys2Proof.Machine.execVorbiscomment isLast length s
  | .cuesheet isLast length => Sys2Proof.Machine.execCuesheet isLast length s
  | .picture isLast length => Sys2Proof.Machine.execPicture isLast length s
  | .reserved7 isLast length => Sys2Proof.Machine.execReserved7 isLast length s
  | .reserved8 isLast length => Sys2Proof.Machine.execReserved8 isLast length s
  | .reserved9 isLast length => Sys2Proof.Machine.execReserved9 isLast length s
  | .reserved10 isLast length => Sys2Proof.Machine.execReserved10 isLast length s
  | .reserved11 isLast length => Sys2Proof.Machine.execReserved11 isLast length s
  | .reserved12 isLast length => Sys2Proof.Machine.execReserved12 isLast length s
  | .reserved13 isLast length => Sys2Proof.Machine.execReserved13 isLast length s
  | .reserved14 isLast length => Sys2Proof.Machine.execReserved14 isLast length s
  | .reserved15 isLast length => Sys2Proof.Machine.execReserved15 isLast length s
  | .reserved16 isLast length => Sys2Proof.Machine.execReserved16 isLast length s
  | .reserved17 isLast length => Sys2Proof.Machine.execReserved17 isLast length s
  | .reserved18 isLast length => Sys2Proof.Machine.execReserved18 isLast length s
  | .reserved19 isLast length => Sys2Proof.Machine.execReserved19 isLast length s
  | .reserved20 isLast length => Sys2Proof.Machine.execReserved20 isLast length s
  | .reserved21 isLast length => Sys2Proof.Machine.execReserved21 isLast length s
  | .reserved22 isLast length => Sys2Proof.Machine.execReserved22 isLast length s
  | .reserved23 isLast length => Sys2Proof.Machine.execReserved23 isLast length s
  | .reserved24 isLast length => Sys2Proof.Machine.execReserved24 isLast length s
  | .reserved25 isLast length => Sys2Proof.Machine.execReserved25 isLast length s
  | .reserved26 isLast length => Sys2Proof.Machine.execReserved26 isLast length s
  | .reserved27 isLast length => Sys2Proof.Machine.execReserved27 isLast length s
  | .reserved28 isLast length => Sys2Proof.Machine.execReserved28 isLast length s
  | .reserved29 isLast length => Sys2Proof.Machine.execReserved29 isLast length s
  | .reserved30 isLast length => Sys2Proof.Machine.execReserved30 isLast length s
  | .reserved31 isLast length => Sys2Proof.Machine.execReserved31 isLast length s
  | .reserved32 isLast length => Sys2Proof.Machine.execReserved32 isLast length s
  | .reserved33 isLast length => Sys2Proof.Machine.execReserved33 isLast length s
  | .reserved34 isLast length => Sys2Proof.Machine.execReserved34 isLast length s
  | .reserved35 isLast length => Sys2Proof.Machine.execReserved35 isLast length s
  | .reserved36 isLast length => Sys2Proof.Machine.execReserved36 isLast length s
  | .reserved37 isLast length => Sys2Proof.Machine.execReserved37 isLast length s
  | .reserved38 isLast length => Sys2Proof.Machine.execReserved38 isLast length s
  | .reserved39 isLast length => Sys2Proof.Machine.execReserved39 isLast length s
  | .reserved40 isLast length => Sys2Proof.Machine.execReserved40 isLast length s
  | .reserved41 isLast length => Sys2Proof.Machine.execReserved41 isLast length s
  | .reserved42 isLast length => Sys2Proof.Machine.execReserved42 isLast length s
  | .reserved43 isLast length => Sys2Proof.Machine.execReserved43 isLast length s
  | .reserved44 isLast length => Sys2Proof.Machine.execReserved44 isLast length s
  | .reserved45 isLast length => Sys2Proof.Machine.execReserved45 isLast length s
  | .reserved46 isLast length => Sys2Proof.Machine.execReserved46 isLast length s
  | .reserved47 isLast length => Sys2Proof.Machine.execReserved47 isLast length s
  | .reserved48 isLast length => Sys2Proof.Machine.execReserved48 isLast length s
  | .reserved49 isLast length => Sys2Proof.Machine.execReserved49 isLast length s
  | .reserved50 isLast length => Sys2Proof.Machine.execReserved50 isLast length s
  | .reserved51 isLast length => Sys2Proof.Machine.execReserved51 isLast length s
  | .reserved52 isLast length => Sys2Proof.Machine.execReserved52 isLast length s
  | .reserved53 isLast length => Sys2Proof.Machine.execReserved53 isLast length s
  | .reserved54 isLast length => Sys2Proof.Machine.execReserved54 isLast length s
  | .reserved55 isLast length => Sys2Proof.Machine.execReserved55 isLast length s
  | .reserved56 isLast length => Sys2Proof.Machine.execReserved56 isLast length s
  | .reserved57 isLast length => Sys2Proof.Machine.execReserved57 isLast length s
  | .reserved58 isLast length => Sys2Proof.Machine.execReserved58 isLast length s
  | .reserved59 isLast length => Sys2Proof.Machine.execReserved59 isLast length s
  | .reserved60 isLast length => Sys2Proof.Machine.execReserved60 isLast length s
  | .reserved61 isLast length => Sys2Proof.Machine.execReserved61 isLast length s
  | .reserved62 isLast length => Sys2Proof.Machine.execReserved62 isLast length s
  | .reserved63 isLast length => Sys2Proof.Machine.execReserved63 isLast length s
  | .reserved64 isLast length => Sys2Proof.Machine.execReserved64 isLast length s
  | .reserved65 isLast length => Sys2Proof.Machine.execReserved65 isLast length s
  | .reserved66 isLast length => Sys2Proof.Machine.execReserved66 isLast length s
  | .reserved67 isLast length => Sys2Proof.Machine.execReserved67 isLast length s
  | .reserved68 isLast length => Sys2Proof.Machine.execReserved68 isLast length s
  | .reserved69 isLast length => Sys2Proof.Machine.execReserved69 isLast length s
  | .reserved70 isLast length => Sys2Proof.Machine.execReserved70 isLast length s
  | .reserved71 isLast length => Sys2Proof.Machine.execReserved71 isLast length s
  | .reserved72 isLast length => Sys2Proof.Machine.execReserved72 isLast length s
  | .reserved73 isLast length => Sys2Proof.Machine.execReserved73 isLast length s
  | .reserved74 isLast length => Sys2Proof.Machine.execReserved74 isLast length s
  | .reserved75 isLast length => Sys2Proof.Machine.execReserved75 isLast length s
  | .reserved76 isLast length => Sys2Proof.Machine.execReserved76 isLast length s
  | .reserved77 isLast length => Sys2Proof.Machine.execReserved77 isLast length s
  | .reserved78 isLast length => Sys2Proof.Machine.execReserved78 isLast length s
  | .reserved79 isLast length => Sys2Proof.Machine.execReserved79 isLast length s
  | .reserved80 isLast length => Sys2Proof.Machine.execReserved80 isLast length s
  | .reserved81 isLast length => Sys2Proof.Machine.execReserved81 isLast length s
  | .reserved82 isLast length => Sys2Proof.Machine.execReserved82 isLast length s
  | .reserved83 isLast length => Sys2Proof.Machine.execReserved83 isLast length s
  | .reserved84 isLast length => Sys2Proof.Machine.execReserved84 isLast length s
  | .reserved85 isLast length => Sys2Proof.Machine.execReserved85 isLast length s
  | .reserved86 isLast length => Sys2Proof.Machine.execReserved86 isLast length s
  | .reserved87 isLast length => Sys2Proof.Machine.execReserved87 isLast length s
  | .reserved88 isLast length => Sys2Proof.Machine.execReserved88 isLast length s
  | .reserved89 isLast length => Sys2Proof.Machine.execReserved89 isLast length s
  | .reserved90 isLast length => Sys2Proof.Machine.execReserved90 isLast length s
  | .reserved91 isLast length => Sys2Proof.Machine.execReserved91 isLast length s
  | .reserved92 isLast length => Sys2Proof.Machine.execReserved92 isLast length s
  | .reserved93 isLast length => Sys2Proof.Machine.execReserved93 isLast length s
  | .reserved94 isLast length => Sys2Proof.Machine.execReserved94 isLast length s
  | .reserved95 isLast length => Sys2Proof.Machine.execReserved95 isLast length s
  | .reserved96 isLast length => Sys2Proof.Machine.execReserved96 isLast length s
  | .reserved97 isLast length => Sys2Proof.Machine.execReserved97 isLast length s
  | .reserved98 isLast length => Sys2Proof.Machine.execReserved98 isLast length s
  | .reserved99 isLast length => Sys2Proof.Machine.execReserved99 isLast length s
  | .reserved100 isLast length => Sys2Proof.Machine.execReserved100 isLast length s
  | .reserved101 isLast length => Sys2Proof.Machine.execReserved101 isLast length s
  | .reserved102 isLast length => Sys2Proof.Machine.execReserved102 isLast length s
  | .reserved103 isLast length => Sys2Proof.Machine.execReserved103 isLast length s
  | .reserved104 isLast length => Sys2Proof.Machine.execReserved104 isLast length s
  | .reserved105 isLast length => Sys2Proof.Machine.execReserved105 isLast length s
  | .reserved106 isLast length => Sys2Proof.Machine.execReserved106 isLast length s
  | .reserved107 isLast length => Sys2Proof.Machine.execReserved107 isLast length s
  | .reserved108 isLast length => Sys2Proof.Machine.execReserved108 isLast length s
  | .reserved109 isLast length => Sys2Proof.Machine.execReserved109 isLast length s
  | .reserved110 isLast length => Sys2Proof.Machine.execReserved110 isLast length s
  | .reserved111 isLast length => Sys2Proof.Machine.execReserved111 isLast length s
  | .reserved112 isLast length => Sys2Proof.Machine.execReserved112 isLast length s
  | .reserved113 isLast length => Sys2Proof.Machine.execReserved113 isLast length s
  | .reserved114 isLast length => Sys2Proof.Machine.execReserved114 isLast length s
  | .reserved115 isLast length => Sys2Proof.Machine.execReserved115 isLast length s
  | .reserved116 isLast length => Sys2Proof.Machine.execReserved116 isLast length s
  | .reserved117 isLast length => Sys2Proof.Machine.execReserved117 isLast length s
  | .reserved118 isLast length => Sys2Proof.Machine.execReserved118 isLast length s
  | .reserved119 isLast length => Sys2Proof.Machine.execReserved119 isLast length s
  | .reserved120 isLast length => Sys2Proof.Machine.execReserved120 isLast length s
  | .reserved121 isLast length => Sys2Proof.Machine.execReserved121 isLast length s
  | .reserved122 isLast length => Sys2Proof.Machine.execReserved122 isLast length s
  | .reserved123 isLast length => Sys2Proof.Machine.execReserved123 isLast length s
  | .reserved124 isLast length => Sys2Proof.Machine.execReserved124 isLast length s
  | .reserved125 isLast length => Sys2Proof.Machine.execReserved125 isLast length s
  | .reserved126 isLast length => Sys2Proof.Machine.execReserved126 isLast length s
  | .invalid isLast length => Sys2Proof.Machine.execInvalid isLast length s

end Sys2Proof.Machine
end

