-- ==== Sys2Proof/Machine/Step.lean ====
section
/-! DEFINITION. One step of the core (45_toplevel.md R114), and placing an instruction where the next step reads it. -/

namespace Sys2Proof.Machine

/-- One whole operation of the top-level loop (R114): SIGCHECK, or HDRDEC and DISPATCH with body parser and CLOSE. In
DONE and FAILED no step is enabled (R115, R129). -/
def step (s : State) : Host.Outcome State Fault Refusal :=
  if s.inp.wf = false then .refused .streamTooLong
  else
    match s.phase with
    | .sig => exec .sig s
    | .header =>
      match fetchHeader s with
      | .error t => .next t
      | .ok (w, t) => exec (decodeHeaderWord w) t
    | .body => .fault .notEnabled
    | .done => .fault .halted
    | .failed => .fault .failed

/-- The stream with a block of word `w` at offset `at_`: the header's four bytes and a body of zeros. -/
def blockStream (before : List Byte) (w : BitVec 32) : Memory :=
  before ++ beBytes 4 w.toNat ++ List.replicate (hdrLength w).toNat 0

/-- `s` with the table word `w` where the next step reads its instruction. The signature word: a stream that begins
with it, cursor 0, phase SIG. A header word, in phase HEADER: the block stands at the cursor. A header word in any
other phase: the stream is the signature and the block, and the state is the one right after the signature. Log 13. -/
def State.withFetchWord (s : State) (_nbits w : Nat) : State :=
  if w = 0x664C6143 then { s with inp := Config.signature, cursor := 0, phase := .sig }
  else if s.phase = .header ∧ s.cursor ≤ s.inp.length then
    { s with inp := blockStream (s.inp.take s.cursor) (BitVec.ofNat 32 w) }
  else
    { s with
      inp := blockStream Config.signature (BitVec.ofNat 32 w)
      cursor := 4
      phase := .header
      err := ⟨.none, 0⟩
      blk := .empty }

end Sys2Proof.Machine
end

