-- ==== Sys2Proof/Machine/Bodies.lean ====
section
/-! DEFINITION. The body formats of 30_encoding.md R56 to R60 written as encoders. The core has no encoder (R4); these
say what bytes a record stands for, as the source's round-trip property does. -/

namespace Sys2Proof.Machine

/-- A string with its little-endian 32-bit length prefix (R59, R61). -/
def lstrLEBytes (b : List Byte) : List Byte := leBytes 4 b.length ++ b

/-- A string with its big-endian 32-bit length prefix (R60, R61). -/
def lstrBEBytes (b : List Byte) : List Byte := beBytes 4 b.length ++ b

/-- The STREAMINFO body (R56). -/
def StreamInfoRec.bytes (r : StreamInfoRec) : List Byte :=
  beBytes 2 r.minBlockSize.toNat ++ beBytes 2 r.maxBlockSize.toNat ++ beBytes 3 r.minFrameSize.toNat ++
    beBytes 3 r.maxFrameSize.toNat ++ beBytes 8 r.packed.toNat ++ r.checksum

/-- One seek point (R58). -/
def SeekPoint.bytes (p : SeekPoint) : List Byte :=
  beBytes 8 p.sampleNumber.toNat ++ beBytes 8 p.byteOffset.toNat ++ beBytes 2 p.frameSamples.toNat

/-- The SEEKTABLE body without a remainder (R58). -/
def SeekTableRec.bytes (r : SeekTableRec) : List Byte := r.points.flatMap SeekPoint.bytes

/-- The VORBISCOMMENT body (R59). -/
def VorbisCommentRec.bytes (r : VorbisCommentRec) : List Byte :=
  lstrLEBytes r.vendor ++ leBytes 4 r.comments.length ++ r.comments.flatMap lstrLEBytes

/-- The PICTURE body (R60), with the geometry bytes and the payload, which are in no record. -/
def PictureRec.bytes (r : PictureRec) (geometry payload : List Byte) : List Byte :=
  beBytes 4 r.pictureType.toNat ++ lstrBEBytes r.mime ++ lstrBEBytes r.description ++ geometry ++
    lstrBEBytes payload

/-- `body` is the record of the body bytes `bytes`, and `payloads` is what those bytes put on PAY (R56 to R60, R63). -/
def Body.Encodes : Body → (payloads : List (List Byte)) → (bytes : List Byte) → Prop
  | .streamInfo r, payloads, bytes =>
    r.checksum.length = Config.checksumBytes ∧ payloads = [] ∧ bytes = r.bytes
  | .padding, payloads, _ => payloads = []
  | .seekTable r, payloads, bytes => payloads = [] ∧ bytes = r.bytes
  | .vorbisComment r, payloads, bytes => payloads = [] ∧ bytes = r.bytes
  | .picture r, payloads, bytes =>
    ∃ geometry payload, geometry.length = Config.geometryBytes ∧ r.pictureType.toNat ≤ Config.picTypeMax ∧
      r.payloadLength.toNat = payload.length ∧ payloads = [payload] ∧ bytes = r.bytes geometry payload

/-- The type code of a record's body (R54). -/
def Body.typeCode : Body → BitVec 7
  | .streamInfo _ => 0
  | .padding => 1
  | .seekTable _ => 3
  | .vorbisComment _ => 4
  | .picture _ => 6

/-- `chunk` is a whole block of the stream, header and `length` body bytes, and `b` is its record (R50, R62). -/
def Block.Encodes (b : Block) (payloads : List (List Byte)) (chunk : List Byte) : Prop :=
  ∃ bytes, chunk = beBytes 4 (headerWord b.isLast b.blockType b.length).toNat ++ bytes ∧
    bytes.length = b.length.toNat ∧ b.blockType = b.body.typeCode ∧ b.body.Encodes payloads bytes

/-- `bytes` is the signature and then the blocks whose records are `records`, in order, with `payloads` on PAY (R50). -/
inductive Parsed : (bytes : List Byte) → (records : List Block) → (payloads : List (List Byte)) → Prop where
  | signature : Parsed Config.signature [] []
  | block {bytes : List Byte} {records : List Block} {payloads more : List (List Byte)} {b : Block}
      {chunk : List Byte} : Parsed bytes records payloads → b.Encodes more chunk →
      Parsed (bytes ++ chunk) (records ++ [b]) (payloads ++ more)

end Sys2Proof.Machine
end

