-- ==== Sys2Proof/Machine/Reference.lean ====
section
/-! DEFINITION. The reference function of 45_toplevel.md R116: the whole behaviour as one function of the stream and the sink, with
no register but the cursor and what is left of the body. Claims compare the machine with it; the machine does not use it. -/

namespace Sys2Proof.Machine

/-- The variables of R116: `cur`, `rem` (none outside a body), `out`, `pay`. -/
structure RefVars where
  cur : Nat
  rem : Option Nat
  out : List Block
  pay : List (List Byte)
deriving DecidableEq, Repr

/-- The outcome of a decode attempt (R116, R131). -/
inductive RefOutcome where
  | done (cursor : Nat)
  | failed (reason : Reason) (info : BitVec 32)
deriving DecidableEq, Repr

/-- A computation of the reference function: a value, or a `fail` with the variables at that point. -/
abbrev Ref116 (α : Type) := StateT RefVars (Except (Reason × BitVec 32 × RefVars)) α

/-- `fail(kind, cause, info)`. -/
def refFail {α : Type} (r : Reason) (info : BitVec 32) : Ref116 α := fun v => .error (r, info, v)

/-- Reads the variables. -/
def refVars : Ref116 RefVars := fun v => .ok (v, v)

/-- Changes the variables. -/
def refSet (f : RefVars → RefVars) : Ref116 Unit := fun v => .ok ((), f v)

/-- `take(n, where)`. -/
def refTake (S : List Byte) (place : TruncatedCause) (n : Nat) : Ref116 (List Byte) := fun v =>
  if v.rem.any (fun rem => rem < n) then .error (.format .bodyOverread, BitVec.ofNat 32 n, v)
  else if S.length < v.cur + n then .error (.truncated place, 0, v)
  else .ok ((S.drop v.cur).take n, { v with cur := v.cur + n, rem := v.rem.map (· - n) })

/-- `be(k, where)`. -/
def refBE (S : List Byte) (place : TruncatedCause) (k : Nat) : Ref116 Nat := do
  let b ← refTake S place k
  pure (beNat b)

/-- `le(k, IN_BODY)`. -/
def refLE (S : List Byte) (k : Nat) : Ref116 Nat := do
  let b ← refTake S .inBody k
  pure (leNat b)

/-- `[ item repeated n times, stopping at the first fail ]`. -/
def refRepeat {α : Type} (item : Ref116 α) : Nat → Ref116 (List α)
  | 0 => pure []
  | n + 1 => do
    let x ← item
    let xs ← refRepeat item n
    pure (x :: xs)

/-- The seek point of R116, `SeekPoint{be(8), be(8), be(2)}`. -/
def refPoint (S : List Byte) : Ref116 SeekPoint := do
  let s ← refBE S .inBody 8
  let o ← refBE S .inBody 8
  let f ← refBE S .inBody 2
  pure ⟨BitVec.ofNat 64 s, BitVec.ofNat 64 o, BitVec.ofNat 16 f⟩

/-- `take(le(4))`. -/
def refStringLE (S : List Byte) : Ref116 (List Byte) := do
  let n ← refLE S 4
  refTake S .inBody n

/-- `take(be(4))`. -/
def refStringBE (S : List Byte) : Ref116 (List Byte) := do
  let n ← refBE S .inBody 4
  refTake S .inBody n

/-- `case t of` for the five types with a parser; `draw` numbers the sink's answers from `first` on. -/
def refBody (S : List Byte) (sink : Nat → List Byte → Ref) (first : Nat) (t length : Nat) : Ref116 Body :=
  match t with
  | 0 => do
    let a ← refBE S .inBody 2
    let b ← refBE S .inBody 2
    let c ← refBE S .inBody 3
    let d ← refBE S .inBody 3
    let e ← refBE S .inBody 8
    let f ← refTake S .inBody 16
    pure (.streamInfo ⟨BitVec.ofNat 16 a, BitVec.ofNat 16 b, BitVec.ofNat 24 c, BitVec.ofNat 24 d, BitVec.ofNat 64 e, f⟩)
  | 1 => do
    let _ ← refTake S .inBody length
    pure .padding
  | 3 => do
    let points ← refRepeat (refPoint S) (length / 18)
    pure (.seekTable ⟨points⟩)
  | 4 => do
    let v ← refStringLE S
    let c ← refLE S 4
    let comments ← refRepeat (refStringLE S) c
    pure (.vorbisComment ⟨v, comments⟩)
  | _ => do
    let p ← refBE S .inBody 4
    if 20 < p then refFail (.format .badPictureType) (BitVec.ofNat 32 p) else pure ()
    let m ← refStringBE S
    let d ← refStringBE S
    let _ ← refTake S .inBody 16
    let q ← refBE S .inBody 4
    let y ← refTake S .inBody q
    let v ← refVars
    refSet fun v => { v with pay := v.pay ++ [y] }
    pure (.picture ⟨BitVec.ofNat 32 p, m, d, BitVec.ofNat 32 q, sink (first + v.pay.length) y⟩)

/-- One turn of R116's loop: a header, its body, the framing check, the record. The answer is the last-flag. -/
def refBlock (S : List Byte) (sink : Nat → List Byte → Ref) (first : Nat) : Ref116 Bool := do
  let w ← refBE S .inHeader 4
  let isLast := decide (w / 2 ^ 31 = 1)
  let t := w / 2 ^ 24 % 128
  let length := w % 2 ^ 24
  if t = 2 then refFail (.unsupported .application) 2 else pure ()
  if t = 5 then refFail (.unsupported .cuesheet) 5 else pure ()
  if t = 127 then refFail (.unsupported .invalid) 127 else pure ()
  if 7 ≤ t ∧ t ≤ 126 then refFail (.unsupported .reserved) (BitVec.ofNat 32 t) else pure ()
  refSet fun v => { v with rem := some length }
  let body ← refBody S sink first t length
  let v ← refVars
  if v.rem ≠ some 0 then refFail (.format .bodyUnderread) (BitVec.ofNat 32 (v.rem.getD 0)) else pure ()
  refSet fun v => { v with
    rem := none
    out := v.out ++ [⟨isLast, BitVec.ofNat 7 t, BitVec.ofNat 24 length, body⟩] }
  pure isLast

/-- R116's loop, at most `fuel` turns; every turn that does not fail reads at least four bytes, so `S.length` turns and
one more are always enough. -/
def refLoop (S : List Byte) (sink : Nat → List Byte → Ref) (first : Nat) : Nat → Ref116 Unit
  | 0 => refFail .none 0
  | fuel + 1 => do
    let isLast ← refBlock S sink first
    if isLast then pure () else refLoop S sink first fuel

/-- The signature check and then the loop. -/
def refRun (S : List Byte) (sink : Nat → List Byte → Ref) (first : Nat) : Ref116 Unit := do
  let b ← refTake S .inSignature 4
  if b ≠ [0x66, 0x4C, 0x61, 0x43] then refFail (.format .badSignature) (BitVec.ofNat 32 (beNat b)) else pure ()
  refLoop S sink first (S.length + 1)

/-- `decode(S, PaySink)` of R116: the outcome, the EVT history and the PAY history. -/
def refDecode (S : List Byte) (sink : Nat → List Byte → Ref) (first : Nat) :
    RefOutcome × List Block × List (List Byte) :=
  match refRun S sink first ⟨0, none, [], []⟩ with
  | .ok (_, v) => (.done v.cur, v.out, v.pay)
  | .error (r, info, v) => (.failed r info, v.out, v.pay)

/-- What a run of the machine shows when it has ended: the outcome and the two histories (R114, R131). -/
def State.observed (s : State) : RefOutcome × List Block × List (List Byte) :=
  (if s.phase = .done then .done s.cursor else .failed s.err.reason s.err.info, s.evt, s.pay)

end Sys2Proof.Machine
end

