-- ==== Sys2Proof/Safety.lean ====
section
/-! DEFINITION. What a sound state of the machine is, and the terms claims are stated in. -/

namespace Sys2Proof.Machine

/-- The decode has ended (R115): DONE or FAILED. -/
def State.ended (s : State) : Prop := s.phase = .done ∨ s.phase = .failed

/-- `t` is `s` after a failure entry with this reason and info, in everything R127 defines: ERR, PHASE and BLK as it
says, the outputs and the stream as they were. Nothing is said of the registers R127 leaves undefined. -/
structure FailedFrom (s t : State) (r : Reason) (info : BitVec 32) : Prop where
  err : t.err = ⟨r, info⟩
  phase : t.phase = .failed
  blk : t.blk = .empty
  inp : t.inp = s.inp
  evt : t.evt = s.evt
  pay : t.pay = s.pay
  sinkHeld : t.sinkHeld = s.sinkHeld

/-- The stream holds `bytes` at the cursor. -/
def State.ahead (s : State) (bytes : List Byte) : Prop := bytes <+: s.inp.drop s.cursor

/-- The bytes of the stream a record accounts for: its header and its body (R62). -/
def Block.span (b : Block) : Nat := 4 + b.length.toNat

/-- What the lengths inside a record must add up to (R144), and the bounds its fields keep (R63). -/
def Block.Framed (b : Block) : Prop :=
  b.blockType = b.body.typeCode ∧
  match b.body with
  | .streamInfo r => b.length.toNat = 34 ∧ r.checksum.length = 16
  | .padding => True
  | .seekTable r => b.length.toNat = 18 * r.points.length
  | .vorbisComment r =>
    b.length.toNat = 8 + r.vendor.length + (r.comments.map fun c => 4 + c.length).sum
  | .picture r =>
    b.length.toNat = 32 + r.mime.length + r.description.length + r.payloadLength.toNat ∧
      r.pictureType.toNat ≤ 20

/-- The payload length a record reports, if it is a picture's. -/
def Block.payloadLength (b : Block) : Option Nat :=
  match b.body with
  | .picture r => some r.payloadLength.toNat
  | .streamInfo _ | .padding | .seekTable _ | .vorbisComment _ => none

/-- The payload lengths the records on EVT report, in order. -/
def State.reportedPayloads (s : State) : List Nat := s.evt.filterMap Block.payloadLength

/-- The sound states: what holds of every state a decode rests in. -/
structure Inv (s : State) : Prop where
  /-- The stream is one this hardware accepts (R11). -/
  streamFits : s.inp.length < 2 ^ 64
  /-- BODY is not a resting phase (R114). -/
  resting : s.phase ≠ .body
  /-- `ERR.kind != NONE` if and only if PHASE = FAILED (R17). -/
  errIffFailed : s.err.reason ≠ .none ↔ s.phase = .failed
  /-- Without an error the info word is 0 (R17). -/
  noErrNoInfo : s.err.reason = .none → s.err.info = 0
  /-- No record is under construction between steps (R19). -/
  blkEmpty : s.blk = .empty
  /-- Outside a PICTURE operation the sink is never held (R22). -/
  sinkFree : s.sinkHeld = false
  /-- Right after reset nothing has been read or emitted (R23). -/
  atStart : s.phase = .sig → s.cursor = 0 ∧ s.evt = [] ∧ s.pay = []
  /-- Past the signature check the stream begins with the signature (R113). -/
  signed : s.phase = .header ∨ s.phase = .done → s.inp.take 4 = Config.signature
  /-- The framing invariant: the cursor stands where the emitted blocks' lengths put it (R14, R86, R87), and never past
  the end of the stream (R76). -/
  framing : s.phase = .header ∨ s.phase = .done →
    s.cursor = 4 + (s.evt.map Block.span).sum ∧ s.cursor ≤ s.inp.length
  /-- Every record on EVT accounts for exactly its header's length (R86, R144). -/
  records : ∀ b ∈ s.evt, b.Framed
  /-- No block before the last carries the last-flag, and DONE follows one that does (R115, R117). -/
  lastFlags : if s.phase = .done then ∃ before b, s.evt = before ++ [b] ∧ b.isLast = true ∧ ∀ c ∈ before, c.isLast = false
    else ∀ b ∈ s.evt, b.isLast = false
  /-- PAY holds the payloads of the pictures reported, and after a failure at most one more (R128, R109). -/
  payloads : if s.phase = .failed then
      s.reportedPayloads <+: s.pay.map List.length ∧ s.pay.length ≤ s.reportedPayloads.length + 1
    else s.pay.map List.length = s.reportedPayloads

/-- What has been consumed is the signature and the blocks reported, byte for byte, and what is on PAY is their
payloads (R39, R41, R50). -/
def Inv.Explained (s : State) : Prop :=
  s.phase = .header ∨ s.phase = .done → s.cursor ≤ s.inp.length ∧ Parsed (s.inp.take s.cursor) s.evt s.pay

end Sys2Proof.Machine
end

