-- ==== Sys2Proof/Certificates/Slice0/Obligations.lean ====
section
/-! DEFINITION. The statements for the provers. Every one quantifies over the state or the operands; a free value
(a `Ref`, a register after a failure) is never given a value: a statement that mentions one holds for all of them. -/

open Sys2Proof Sys2Proof.Machine

/-! ### Encoding (30_encoding.md) -/

/-- R53: the header fields, from the four bytes in stream order, as bits of the word and as bits of the bytes. -/
def Obligations.HeaderFieldsFollowTheirBits : Prop :=
  (∀ (b0 b1 b2 b3 : Byte) (rest : List Byte),
    let w := wordOfBytes (b0 :: b1 :: b2 :: b3 :: rest)
    w.toNat = b0.toNat * 2 ^ 24 + b1.toNat * 2 ^ 16 + b2.toNat * 2 ^ 8 + b3.toNat ∧
    hdrIsLast w = w.getLsbD 31 ∧ hdrIsLast w = b0.getLsbD 7 ∧
    (hdrBlockType w).toNat = w.toNat / 2 ^ 24 % 2 ^ 7 ∧ (hdrBlockType w).toNat = b0.toNat % 2 ^ 7 ∧
    (hdrLength w).toNat = w.toNat % 2 ^ 24 ∧
    (hdrLength w).toNat = b1.toNat * 2 ^ 16 + b2.toNat * 2 ^ 8 + b3.toNat) ∧
  (let w := wordOfBytes [0x84, 0x00, 0x00, 0x28]
   hdrIsLast w = true ∧ hdrBlockType w = 4 ∧ hdrLength w = 40)

/-- R50, R51, R52, R54: every instruction, with every last-flag and every length, in its slot of the stream, is decoded
from its encoding, whatever follows. (The signature's byte values are the spec's GK1, log 17.) -/
def Obligations.DecodeOfEncodeIsTheInstruction : Prop :=
  ∀ (c : Slot) (i : Instr) (rest : List Byte), i.wellFormed c = true → decode c (encode i ++ rest) = .ok (i, rest)

/-- R52, R54, R55: what decodes is the encoding of the instruction it decodes to, in that instruction's slot; so no bit
of a word is dropped and no two words give one instruction. -/
def Obligations.EncodeOfDecodeIsTheWord : Prop :=
  ∀ (c : Slot) (bs : List Byte) (i : Instr) (rest : List Byte), decode c bs = .ok (i, rest) →
    encode i ++ rest = bs ∧ i.wellFormed c = true

/-- R51, R52, R65: every header word decodes, the signature slot takes the signature alone, and fewer than four bytes
are refused; each refusal by name. -/
def Obligations.DecoderRefusesByName : Prop :=
  ∀ bs : List Byte,
    (bs.length < 4 → ∀ c, decode c bs = .error (.tooShort bs.length)) ∧
    (4 ≤ bs.length → ∃ i, decode .header bs = .ok (i, bs.drop 4)) ∧
    (4 ≤ bs.length → bs.take 4 ≠ Config.signature → decode .signature bs = .error (.badSignature (wordOfBytes bs)))

/-- R51, R52, R54: words written out from the spec's tables decode to what they stand for (a sanity check). -/
def Obligations.WrittenOutWordsDecode : Prop :=
  decode .signature [0x66, 0x4C, 0x61, 0x43] = .ok (.sig, []) ∧
  decode .header [0x00, 0x00, 0x00, 0x22] = .ok (.streaminfo false 34, []) ∧
  decode .header [0x81, 0x00, 0x00, 0x00] = .ok (.padding true 0, []) ∧
  decode .header [0x02, 0x00, 0x00, 0x04] = .ok (.application false 4, []) ∧
  decode .header [0x03, 0x00, 0x00, 0x24] = .ok (.seektable false 36, []) ∧
  decode .header [0x84, 0x00, 0x00, 0x28] = .ok (.vorbiscomment true 40, []) ∧
  decode .header [0x85, 0x00, 0x00, 0x00] = .ok (.cuesheet true 0, []) ∧
  decode .header [0x06, 0x00, 0x01, 0x00] = .ok (.picture false 256, []) ∧
  decode .header [0x07, 0x00, 0x00, 0x00] = .ok (.reserved7 false 0, []) ∧
  decode .header [0xFE, 0xFF, 0xFF, 0xFF] = .ok (.reserved126 true 16777215, []) ∧
  decode .header [0xFF, 0xFF, 0xFF, 0xFF] = .ok (.invalid true 16777215, [])

/-! ### Reset, status, failure entry -/

/-- R23, R140: the state after reset, in everything the spec gives a value (beyond PHASE and CURSOR the spec's D9). That
the stream is a field, that launch puts `m` in place and that State.reset has an empty stream are the model's choice
(logs 1, 13), no rule of the spec. -/
def Obligations.ResetHoldsWhatTheSpecGives : Prop :=
  ∀ m : Memory, let s := State.launch m
    s.phase = .sig ∧ s.cursor = 0 ∧ s.err = ⟨.none, 0⟩ ∧ s.blk = .empty ∧ s.evt = [] ∧ s.pay = [] ∧
      s.sinkHeld = false ∧ s.inp = m ∧ s.status = (0, 0, 0, 0) ∧ State.reset = State.launch []

/-- R12, R124: the numbers of phases, kinds and causes, which the STATUS port shows (D3, D6). -/
def Obligations.StatusNumbers : Prop :=
  ([Phase.sig, .header, .body, .done, .failed].map Phase.code = [0, 1, 2, 3, 4]) ∧
  (∀ i, Err.kindCode ⟨.none, i⟩ = 0 ∧ Err.causeCode ⟨.none, i⟩ = 0) ∧
  (∀ c i, Err.kindCode ⟨.format c, i⟩ = 1) ∧ (∀ c i, Err.kindCode ⟨.unsupported c, i⟩ = 2) ∧
  (∀ c i, Err.kindCode ⟨.truncated c, i⟩ = 3) ∧
  (∀ i, [FormatCause.badSignature, .badPictureType, .bodyOverread, .bodyUnderread].map
    (fun c => Err.causeCode ⟨.format c, i⟩) = [1, 2, 3, 4]) ∧
  (∀ i, [UnsupportedCause.application, .cuesheet, .invalid, .reserved].map
    (fun c => Err.causeCode ⟨.unsupported c, i⟩) = [1, 2, 3, 4]) ∧
  (∀ i, [TruncatedCause.inSignature, .inHeader, .inBody].map (fun c => Err.causeCode ⟨.truncated c, i⟩) = [1, 2, 3]) ∧
  (∀ s : State, s.status = (s.phase.code, s.err.kindCode, s.err.causeCode, s.err.info))

/-- R127: what a failure entry does. Nothing is said of the registers the rule leaves undefined (free values, log 6). -/
def Obligations.FailureEntryWritesErrAndPhase : Prop :=
  ∀ (r : Reason) (info : BitVec 32) (s : State), FailedFrom s (s.failureEntry r info) r info

/-! ### The reader (40_reader.md) -/

/-- R31: MemRead answers the bytes of the window one for one, and meets end-of-stream exactly past the end. -/
def Obligations.MemReadAnswersTheWindow : Prop :=
  ∀ (m : Memory) (addr n : Nat),
    (m.length < addr + n → memRead m addr n = none) ∧
    (addr + n ≤ m.length → ∃ b, memRead m addr n = some b ∧ b.length = n ∧ ∀ i < n, b[i]? = m.read (addr + i))

/-- R70: Take checks the body window, then the stream, then consumes; CURSOR and BODY_REM move by exactly `n`, nothing
else moves. The order of the checks and the window itself are the spec's D4 (log 19). -/
def Obligations.TakeChecksWindowThenStream : Prop :=
  (readPlace .sig = .inSignature ∧ readPlace .header = .inHeader ∧ readPlace .body = .inBody) ∧
  ∀ (n : Nat) (s : State), n < 2 ^ 32 →
    (s.phase = .body → s.bodyRem.toNat < n →
      ∃ e, take n s = .error e ∧ FailedFrom s e (.format .bodyOverread) (BitVec.ofNat 32 n)) ∧
    ((s.phase = .body → n ≤ s.bodyRem.toNat) → s.inp.length < s.cursor + n →
      ∃ e, take n s = .error e ∧ FailedFrom s e (.truncated (readPlace s.phase)) 0) ∧
    ((s.phase = .body → n ≤ s.bodyRem.toNat) → s.cursor + n ≤ s.inp.length →
      ∃ b t, take n s = .ok (b, t) ∧ b.length = n ∧ (∀ i < n, b[i]? = s.inp.read (s.cursor + i)) ∧
        t = { s with cursor := s.cursor + n, bodyRem := t.bodyRem } ∧
        t.bodyRem.toNat = if s.phase = .body then s.bodyRem.toNat - n else s.bodyRem.toNat)

/-- R71: READ_BE answers the sum of b[i] * 256^(k-1-i) over the k bytes Take answers, puts it into ACC zero-extended,
and fails as Take fails, before ACC is written. -/
def Obligations.ReadBEAnswersTheBigEndianValue : Prop :=
  ∀ (w : Width) (s : State),
    (∀ b t, take w.bytes s = .ok (b, t) →
      let v := ∑ i ∈ Finset.range w.bytes, (b.getD i 0).toNat * 256 ^ (w.bytes - 1 - i)
      readBE w s = .ok (v, { t with acc := BitVec.ofNat 64 v }) ∧ v ≤ 2 ^ (8 * w.bytes) - 1 ∧
        (BitVec.ofNat 64 v).toNat = v) ∧
    (∀ e, take w.bytes s = .error e → readBE w s = .error e)

/-- R72: READ_LE answers the sum of b[i] * 256^i over the k bytes Take answers, puts it into ACC zero-extended, and
fails as Take fails. -/
def Obligations.ReadLEAnswersTheLittleEndianValue : Prop :=
  ∀ (w : Width) (s : State),
    (∀ b t, take w.bytes s = .ok (b, t) →
      let v := ∑ i ∈ Finset.range w.bytes, (b.getD i 0).toNat * 256 ^ i
      readLE w s = .ok (v, { t with acc := BitVec.ofNat 64 v }) ∧ v ≤ 2 ^ (8 * w.bytes) - 1 ∧
        (BitVec.ofNat 64 v).toNat = v) ∧
    (∀ e, take w.bytes s = .error e → readLE w s = .error e)

/-- R74: SKIP consumes `n` bytes and drops them, ACC is not written; past the end of the stream it is a
TruncatedStreamError; SKIP(0) does nothing; the bytes skipped influence nothing (two streams of one length give one
state, but for the stream). -/
def Obligations.SkipConsumesAndDrops : Prop :=
  ∀ (n : Nat) (s : State),
    (∀ b t, take n s = .ok (b, t) → skip n s = .ok ((), t) ∧ t.acc = s.acc ∧ t.cursor = s.cursor + n) ∧
    (∀ e, take n s = .error e → skip n s = .error e) ∧
    ((s.phase = .body → n ≤ s.bodyRem.toNat) → s.inp.length < s.cursor + n →
      ∃ e, skip n s = .error e ∧ FailedFrom s e (.truncated (readPlace s.phase)) 0) ∧
    (s.cursor ≤ s.inp.length → skip 0 s = .ok ((), s)) ∧
    (∀ (m : Memory) (t : State), m.length = s.inp.length → skip n s = .ok ((), t) →
      skip n { s with inp := m } = .ok ((), { t with inp := m }))

/-- R101, R107: a string with its length prefix, in either byte order, is read back whole; CURSOR and BODY_REM move by
the prefix and the string, LEN holds the length. -/
def Obligations.PrefixedStringsAreReadWhole : Prop :=
  ∀ (s : State) (b : List Byte), s.phase = .body → 4 + b.length ≤ s.bodyRem.toNat →
    (s.ahead (leBytes 4 b.length ++ b) → ∃ t, lstrLE s = .ok (b, t) ∧ t.cursor = s.cursor + 4 + b.length ∧
      t.bodyRem.toNat = s.bodyRem.toNat - (4 + b.length) ∧ t.len.toNat = b.length ∧ t.acc.toNat = b.length ∧
      t = { s with cursor := t.cursor, bodyRem := t.bodyRem, len := t.len, acc := t.acc }) ∧
    (s.ahead (beBytes 4 b.length ++ b) → ∃ t, lstrBE s = .ok (b, t) ∧ t.cursor = s.cursor + 4 + b.length ∧
      t.bodyRem.toNat = s.bodyRem.toNat - (4 + b.length) ∧ t.len.toNat = b.length ∧ t.acc.toNat = b.length ∧
      t = { s with cursor := t.cursor, bodyRem := t.bodyRem, len := t.len, acc := t.acc })

/-- R101, R107: a declared string longer than what is left of the body is FormatError(BODY_OVERREAD, LEN), in either
byte order, for every 32-bit prefix (D4, log 19). -/
def Obligations.OverlongStringIsAnOverread : Prop :=
  ∀ (s : State) (v : Nat), s.phase = .body → v < 2 ^ 32 → 4 ≤ s.bodyRem.toNat → s.bodyRem.toNat - 4 < v →
    (s.ahead (leBytes 4 v) → ∃ e, lstrLE s = .error e ∧
      FailedFrom s e (.format .bodyOverread) (BitVec.ofNat 32 v)) ∧
    (s.ahead (beBytes 4 v) → ∃ e, lstrBE s = .error e ∧
      FailedFrom s e (.format .bodyOverread) (BitVec.ofNat 32 v))

/-! ### SIG (R113) -/

/-- R113: on the signature's bytes SIG moves the cursor past them and PHASE to HEADER; everything else is unchanged. -/
def Obligations.SignaturePasses : Prop :=
  ∀ s : State, s.phase = .sig → s.ahead [0x66, 0x4C, 0x61, 0x43] →
    exec .sig s = .next { s with cursor := s.cursor + 4, phase := .header }

/-- R113, R121, R123: four other bytes are FormatError(BAD_SIGNATURE) with their big-endian word; fewer than four are
TruncatedStreamError(IN_SIGNATURE), whatever they are (D23, log 20). -/
def Obligations.BadOrShortSignatureFails : Prop :=
  ∀ s : State, s.phase = .sig →
    (∀ b0 b1 b2 b3 : Byte, s.ahead [b0, b1, b2, b3] → [b0, b1, b2, b3] ≠ [0x66, 0x4C, 0x61, 0x43] →
      ∃ t, exec .sig s = .next t ∧ FailedFrom s t (.format .badSignature) (b0 ++ b1 ++ b2 ++ b3)) ∧
    (s.inp.length < s.cursor + 4 → ∃ t, exec .sig s = .next t ∧ FailedFrom s t (.truncated .inSignature) 0)

/-! ### Types without a parser (41_header_dispatch.md) -/

/-- R82, R83, R84: APPLICATION, CUESHEET and INVALID fail at dispatch with their cause and code, for every last-flag,
every length and every stream: no body byte is asked for. -/
def Obligations.ApplicationCuesheetInvalidFailAtDispatch : Prop :=
  ∀ (isLast : Bool) (length : BitVec 24) (s : State), s.phase = .header →
    (∃ t, exec (.application isLast length) s = .next t ∧ FailedFrom s t (.unsupported .application) 2) ∧
    (∃ t, exec (.cuesheet isLast length) s = .next t ∧ FailedFrom s t (.unsupported .cuesheet) 5) ∧
    (∃ t, exec (.invalid isLast length) s = .next t ∧ FailedFrom s t (.unsupported .invalid) 127)

/-- R85: each of the 120 reserved codes, RESERVED_7 to RESERVED_126, fails at dispatch with its code, for every
last-flag, every length and every stream. The instruction of code k is the map's (R54), named reserved<k>. -/
def Obligations.ReservedCodesFailAtDispatch : Prop :=
  ∀ (t : BitVec 7) (isLast : Bool) (length : BitVec 24) (s : State), 7 ≤ t.toNat → t.toNat ≤ 126 →
    s.phase = .header →
    ∃ u, exec (instrOfCode t isLast length) s = .next u ∧
      FailedFrom s u (.unsupported .reserved) (BitVec.ofNat 32 t.toNat)

/-- R54, R65: the opcode map names 129 different instructions: the code of every header instruction leads back to it,
and the two ends of the reserved range are where the table has them. -/
def Obligations.OpcodeMapIsOneToOne : Prop :=
  (∀ (t u : BitVec 7) (a b : Bool) (m n : BitVec 24), instrOfCode t a m = instrOfCode u b n → t = u ∧ a = b ∧ m = n) ∧
  (∀ i : Instr, i ≠ .sig → ∃ (t : BitVec 7) (a : Bool) (m : BitVec 24), i = instrOfCode t a m) ∧
  (∀ a m, instrOfCode 0 a m = .streaminfo a m ∧ instrOfCode 1 a m = .padding a m ∧
    instrOfCode 2 a m = .application a m ∧ instrOfCode 3 a m = .seektable a m ∧
    instrOfCode 4 a m = .vorbiscomment a m ∧ instrOfCode 5 a m = .cuesheet a m ∧ instrOfCode 6 a m = .picture a m ∧
    instrOfCode 7 a m = .reserved7 a m ∧ instrOfCode 126 a m = .reserved126 a m ∧ instrOfCode 127 a m = .invalid a m)

/-! ### STREAMINFO, PADDING, SEEKTABLE (42_streaminfo_padding_seektable.md) -/

/-- R56, R90: a STREAMINFO header of length 34 before the 34 bytes of a record closes with that record on EVT; no bit of
a field is lost. Everything not named is unchanged: CNT, LEN, ERR, PAY, the sink, the stream. -/
def Obligations.StreamInfoReportsItsFields : Prop :=
  ∀ (r : StreamInfoRec) (isLast : Bool) (s : State), s.phase = .header → r.checksum.length = 16 →
    s.ahead (beBytes 2 r.minBlockSize.toNat ++ beBytes 2 r.maxBlockSize.toNat ++ beBytes 3 r.minFrameSize.toNat ++
      beBytes 3 r.maxFrameSize.toNat ++ beBytes 8 r.packed.toNat ++ r.checksum) →
    exec (.streaminfo isLast 34) s = .next { s with
      hdr := ⟨isLast, 0, 34⟩, cursor := s.cursor + 34, bodyRem := 0, acc := r.packed, blk := .empty
      evt := s.evt ++ [⟨isLast, 0, 34, .streamInfo r⟩], phase := if isLast then .done else .header }

/-- R90: a STREAMINFO header shorter than 34, its body in the stream, is an over-read by the first field that does not
fit: 2, 3, 8 or 16 bytes asked for (D4, log 19). -/
def Obligations.ShortStreamInfoOverreads : Prop :=
  ∀ (isLast : Bool) (length : BitVec 24) (s : State), s.phase = .header → length.toNat < 34 →
    s.cursor + length.toNat ≤ s.inp.length →
    ∃ t, exec (.streaminfo isLast length) s = .next t ∧ FailedFrom s t (.format .bodyOverread)
      (if length.toNat < 4 then 2 else if length.toNat < 10 then 3 else if length.toNat < 18 then 8 else 16)

/-- R90, R126, C5: a STREAMINFO header of 34 or more whose 34 field bytes are not all there is truncated; one of more
than 34, its fields there, is an under-read by the excess, whether or not the stream holds the excess (D4, log 19). -/
def Obligations.LongStreamInfoFails : Prop :=
  ∀ (isLast : Bool) (length : BitVec 24) (s : State), s.phase = .header → 34 ≤ length.toNat →
    (s.inp.length < s.cursor + 34 →
      ∃ t, exec (.streaminfo isLast length) s = .next t ∧ FailedFrom s t (.truncated .inBody) 0) ∧
    (34 < length.toNat → s.cursor + 34 ≤ s.inp.length →
      ∃ t, exec (.streaminfo isLast length) s = .next t ∧
        FailedFrom s t (.format .bodyUnderread) (BitVec.ofNat 32 (length.toNat - 34)))

/-- R57, R91: PADDING discards exactly `length` bytes of any value and reports a PaddingRec; ACC, CNT, LEN and all else
not named are unchanged. With fewer than `length` bytes left it is TruncatedStreamError(IN_BODY), never a FormatError. -/
def Obligations.PaddingSkipsItsBody : Prop :=
  ∀ (isLast : Bool) (length : BitVec 24) (s : State), s.phase = .header →
    (s.cursor + length.toNat ≤ s.inp.length →
      exec (.padding isLast length) s = .next { s with
        hdr := ⟨isLast, 1, length⟩, cursor := s.cursor + length.toNat, bodyRem := 0, blk := .empty
        evt := s.evt ++ [⟨isLast, 1, length, .padding⟩], phase := if isLast then .done else .header }) ∧
    (s.inp.length < s.cursor + length.toNat →
      ∃ t, exec (.padding isLast length) s = .next t ∧ FailedFrom s t (.truncated .inBody) 0)

/-- R58, R92: a SEEKTABLE header whose length is 18 bytes a point, before the points' bytes, closes with those points in
stream order; CNT has counted down to 0, ACC holds the last read (unchanged without a point), LEN is unchanged. -/
def Obligations.SeekTableReportsItsPoints : Prop :=
  ∀ (points : List SeekPoint) (isLast : Bool) (length : BitVec 24) (s : State), s.phase = .header →
    length.toNat = 18 * points.length → s.cursor ≤ s.inp.length →
    s.ahead (points.flatMap fun p =>
      beBytes 8 p.sampleNumber.toNat ++ beBytes 8 p.byteOffset.toNat ++ beBytes 2 p.frameSamples.toNat) →
    exec (.seektable isLast length) s = .next { s with
      hdr := ⟨isLast, 3, length⟩, cursor := s.cursor + length.toNat, bodyRem := 0, cnt := 0, blk := .empty
      acc := (points.getLast?.map fun p => p.frameSamples.setWidth 64).getD s.acc
      evt := s.evt ++ [⟨isLast, 3, length, .seekTable ⟨points⟩⟩], phase := if isLast then .done else .header }

/-- R92, R93, R126: with the whole points there, a remainder of `length mod 18` fails at CLOSE and the points read are
not reported (D15, log 19); with the stream ending inside a whole point it is a truncation, remainder or not. -/
def Obligations.SeekTableRemainderFails : Prop :=
  ∀ (isLast : Bool) (length : BitVec 24) (s : State), s.phase = .header → s.cursor ≤ s.inp.length →
    (length.toNat % 18 ≠ 0 → s.cursor + 18 * (length.toNat / 18) ≤ s.inp.length →
      ∃ t, exec (.seektable isLast length) s = .next t ∧
        FailedFrom s t (.format .bodyUnderread) (BitVec.ofNat 32 (length.toNat % 18))) ∧
    (s.inp.length < s.cursor + 18 * (length.toNat / 18) →
      ∃ t, exec (.seektable isLast length) s = .next t ∧ FailedFrom s t (.truncated .inBody) 0)

/-! ### VORBISCOMMENT (43_vorbiscomment.md) -/

/-- R59, R100, R101, R102: a VORBISCOMMENT header before the body of a vendor string and comments, of that body's
length, closes with the vendor and the comments in stream order, whatever bytes they hold (the count little-endian, D12,
log 18). CNT has counted down to 0, LEN and ACC hold the last prefix read. -/
def Obligations.VorbisCommentReportsItsStrings : Prop :=
  ∀ (vendor : List Byte) (comments : List (List Byte)) (isLast : Bool) (length : BitVec 24) (s : State),
    s.phase = .header → length.toNat = 8 + vendor.length + (comments.map fun c => 4 + c.length).sum →
    s.ahead (leBytes 4 vendor.length ++ vendor ++ leBytes 4 comments.length ++
      comments.flatMap fun c => leBytes 4 c.length ++ c) →
    exec (.vorbiscomment isLast length) s = .next { s with
      hdr := ⟨isLast, 4, length⟩, cursor := s.cursor + length.toNat, bodyRem := 0, cnt := 0, blk := .empty
      len := BitVec.ofNat 32 ((comments.getLast?.getD vendor).length)
      acc := BitVec.ofNat 64 ((comments.getLast?.getD []).length)
      evt := s.evt ++ [⟨isLast, 4, length, .vorbisComment ⟨vendor, comments⟩⟩]
      phase := if isLast then .done else .header }

/-- R100: bytes of the body left after the last comment are an under-read by their number; and a count larger than the
body holds is FormatError(BODY_OVERREAD, 4) at the first prefix that finds fewer than 4 bytes left (D4, log 19; the
count is little-endian, D12, log 18). -/
def Obligations.VorbisCommentMustFillItsBody : Prop :=
  ∀ (vendor : List Byte) (comments : List (List Byte)) (count : Nat) (isLast : Bool) (length : BitVec 24) (s : State),
    s.phase = .header → count < 2 ^ 32 →
    s.ahead (leBytes 4 vendor.length ++ vendor ++ leBytes 4 count ++
      comments.flatMap fun c => leBytes 4 c.length ++ c) →
    let used := 8 + vendor.length + (comments.map fun c => 4 + c.length).sum
    (count = comments.length → used < length.toNat →
      ∃ t, exec (.vorbiscomment isLast length) s = .next t ∧
        FailedFrom s t (.format .bodyUnderread) (BitVec.ofNat 32 (length.toNat - used))) ∧
    (comments.length < count → used ≤ length.toNat → length.toNat < used + 4 →
      ∃ t, exec (.vorbiscomment isLast length) s = .next t ∧ FailedFrom s t (.format .bodyOverread) 4)

/-! ### PICTURE (44_picture.md) -/

/-- R60, R105, R107, R108, R109: a PICTURE header before a body of type at most 20, two strings, 16 geometry bytes and a
payload, of that body's length, closes: the payload is on PAY, and the record carries the fields and the sink's answer
(a free value: the statement holds whatever the sink answers). CNT, ERR and the stream are unchanged. The bound 20 is the
spec's D13 (log 18). That the sink always answers is the model's choice (log 8, unsafe), and `draws` is the model's own
field (log 7). -/
def Obligations.PictureReportsAndHandsOver : Prop :=
  ∀ (ty : BitVec 32) (mime description geometry payload : List Byte) (isLast : Bool) (length : BitVec 24) (s : State),
    s.phase = .header → ty.toNat ≤ 20 → geometry.length = 16 →
    length.toNat = 32 + mime.length + description.length + payload.length →
    s.ahead (beBytes 4 ty.toNat ++ (beBytes 4 mime.length ++ mime) ++
      (beBytes 4 description.length ++ description) ++ geometry ++ (beBytes 4 payload.length ++ payload)) →
    exec (.picture isLast length) s = .next { s with
      hdr := ⟨isLast, 6, length⟩, cursor := s.cursor + length.toNat, bodyRem := 0, blk := .empty
      len := BitVec.ofNat 32 payload.length, acc := BitVec.ofNat 64 payload.length
      pay := s.pay ++ [payload], draws := s.draws + 1, sinkHeld := false
      evt := s.evt ++ [⟨isLast, 6, length, .picture
        ⟨ty, mime, description, BitVec.ofNat 32 payload.length, Config.paySink s.draws payload⟩⟩]
      phase := if isLast then .done else .header }

/-- R63, R106, R126: a picture type above 20, compared unsigned, is FormatError(BAD_PICTURE_TYPE) with the code, before
anything else of the body is read; nothing goes to PAY. That the bound is 20 is the spec's D13 (log 18). -/
def Obligations.UnknownPictureTypeFails : Prop :=
  ∀ (ty : BitVec 32) (isLast : Bool) (length : BitVec 24) (s : State), s.phase = .header → 20 < ty.toNat →
    4 ≤ length.toNat → s.ahead (beBytes 4 ty.toNat) →
    ∃ t, exec (.picture isLast length) s = .next t ∧ FailedFrom s t (.format .badPictureType) ty

/-- R109 (c), R128: a Picture body with bytes left after the payload has delivered its payload when CLOSE fails, and its
record is not emitted. That the handoff returns, so that CLOSE is reached, is the model's choice (log 8, unsafe: the sink
always answers); the bound 20 is the spec's D13 (log 18). -/
def Obligations.PictureHandsOverBeforeClose : Prop :=
  ∀ (ty : BitVec 32) (mime description geometry payload : List Byte) (isLast : Bool) (length : BitVec 24) (s : State),
    s.phase = .header → ty.toNat ≤ 20 → geometry.length = 16 →
    32 + mime.length + description.length + payload.length < length.toNat →
    s.ahead (beBytes 4 ty.toNat ++ (beBytes 4 mime.length ++ mime) ++
      (beBytes 4 description.length ++ description) ++ geometry ++ (beBytes 4 payload.length ++ payload)) →
    ∃ t, exec (.picture isLast length) s = .next t ∧ t.phase = .failed ∧
      t.err = ⟨.format .bodyUnderread,
        BitVec.ofNat 32 (length.toNat - (32 + mime.length + description.length + payload.length))⟩ ∧
      t.evt = s.evt ∧ t.pay = s.pay ++ [payload] ∧ t.inp = s.inp ∧ t.blk = .empty ∧ t.sinkHeld = false

/-- The category names are those of the codes 0 to 20 and no others. The set of codes is the spec's D13 and the names are
its GK2, which R63 calls not normative (log 18, PRESUMED); code 3, "Cover (front)", alone is the source's own. -/
def Obligations.CategoriesAreTheTwentyOneCodes : Prop :=
  (∀ t : Nat, (categoryName t).isSome ↔ t ≤ 20) ∧ categoryName 3 = some "Cover (front)" ∧ categoryName 99 = none

/-! ### What instructions leave unchanged, and when they run -/

/-- R90 to R93, R100, R105, R113, R82 to R85: in the phase that enables it, every instruction answers a next state,
whatever the stream and the registers hold. For PICTURE this rests on the model's choice that the sink always answers
(log 8, unsafe), and for every read on a stream that does not stall (log 2). -/
def Obligations.EnabledInstructionsComplete : Prop :=
  ∀ (i : Instr) (s : State),
    s.phase = (match i.slot with | .signature => .sig | .header => .header) → ∃ t, exec i s = .next t

/-- R80, R113: outside the phase that enables it an instruction does nothing: the machine stops by name (log 12). -/
def Obligations.DisabledInstructionsStop : Prop :=
  ∀ (i : Instr) (s : State),
    s.phase ≠ (match i.slot with | .signature => .sig | .header => .header) → exec i s = .fault .notEnabled

/-- Frame of the five block types that close (R86, R87): the header triple is the instruction's, the cursor has moved by
exactly `length`, one record is on EVT with the triple, PHASE is as the last-flag says; ERR, the stream and every byte
of it are unchanged. -/
def Obligations.ClosedBlockFrame : Prop :=
  ∀ (i : Instr) (s t : State), i.slot = .header → exec i s = .next t → t.phase ≠ .failed →
    let w := encodeWord i
    t.hdr = ⟨hdrIsLast w, hdrBlockType w, hdrLength w⟩ ∧ t.cursor = s.cursor + (hdrLength w).toNat ∧
    t.bodyRem = 0 ∧ t.blk = .empty ∧ t.err = s.err ∧ t.inp = s.inp ∧ (∀ a, t.inp.read a = s.inp.read a) ∧
    t.phase = (if hdrIsLast w then .done else .header) ∧
    ∃ body, t.evt = s.evt ++ [⟨hdrIsLast w, hdrBlockType w, hdrLength w, body⟩]

/-- Frame of the working registers of a block that closes (R15, R16, R22, R77): STREAMINFO and PADDING leave CNT and LEN,
PADDING leaves ACC, SEEKTABLE leaves LEN, PICTURE leaves CNT; all but PICTURE leave PAY and the sink. The clauses on
`draws` speak of the model's own field (log 7), of which the spec has no rule. -/
def Obligations.ClosedBlockRegisterFrame : Prop :=
  ∀ (isLast : Bool) (length : BitVec 24) (s t : State), t.phase ≠ .failed →
    (exec (.streaminfo isLast length) s = .next t →
      t.cnt = s.cnt ∧ t.len = s.len ∧ t.pay = s.pay ∧ t.sinkHeld = s.sinkHeld ∧ t.draws = s.draws) ∧
    (exec (.padding isLast length) s = .next t →
      t.cnt = s.cnt ∧ t.len = s.len ∧ t.acc = s.acc ∧ t.pay = s.pay ∧ t.sinkHeld = s.sinkHeld ∧ t.draws = s.draws) ∧
    (exec (.seektable isLast length) s = .next t →
      t.len = s.len ∧ t.pay = s.pay ∧ t.sinkHeld = s.sinkHeld ∧ t.draws = s.draws) ∧
    (exec (.vorbiscomment isLast length) s = .next t →
      t.pay = s.pay ∧ t.sinkHeld = s.sinkHeld ∧ t.draws = s.draws) ∧
    (exec (.picture isLast length) s = .next t →
      t.cnt = s.cnt ∧ ∃ payload, t.pay = s.pay ++ [payload] ∧ t.sinkHeld = false ∧ t.draws = s.draws + 1)

/-- Frame of an instruction that fails (R127, R128): the stream and every byte of it, and EVT, are unchanged; PAY too, but
for the payload of a Picture that fails its framing check (R109 (c)). Nothing is said of the registers R127 leaves
undefined. -/
def Obligations.FailedInstructionFrame : Prop :=
  ∀ (i : Instr) (s t : State), exec i s = .next t → t.phase = .failed →
    t.inp = s.inp ∧ (∀ a, t.inp.read a = s.inp.read a) ∧ t.evt = s.evt ∧ t.blk = .empty ∧ t.err.reason ≠ .none ∧
    (t.pay = s.pay ∨ ∃ isLast length payload, i = .picture isLast length ∧
      t.err.reason = .format .bodyUnderread ∧ t.pay = s.pay ++ [payload])

/-- R144, R149: only a block whose length its type can fill exactly closes: STREAMINFO 34, SEEKTABLE a multiple of 18,
VORBISCOMMENT at least 8, PICTURE at least 32, PADDING any; a type without a parser never. -/
def Obligations.OnlyClosableLengthsClose : Prop :=
  ∀ (i : Instr) (s t : State), exec i s = .next t → t.phase ≠ .failed → i.closable = true

/-! ### The step (45_toplevel.md) -/

/-- R80, R81, R113, R114: a step runs the decoded instruction. In SIG it is SIGCHECK; in HEADER, when the bytes at the
cursor decode to `i`, it is `i` in the state with the header word read: CURSOR past it and ACC holding it. -/
def Obligations.StepRunsTheDecodedInstruction : Prop :=
  ∀ s : State, s.inp.length < 2 ^ 64 →
    (s.phase = .sig → step s = exec .sig s) ∧
    (∀ (i : Instr) (rest : List Byte), s.phase = .header → decode .header (s.inp.drop s.cursor) = .ok (i, rest) →
      step s = exec i { s with
        cursor := s.cursor + 4, acc := BitVec.ofNat 64 (wordOfBytes (s.inp.drop s.cursor)).toNat })

/-- R80, R117, R123: with fewer than four bytes left in HEADER a step is TruncatedStreamError(IN_HEADER); also when the
blocks run out without a last-flagged one. -/
def Obligations.MissingHeaderIsTruncation : Prop :=
  ∀ s : State, s.inp.length < 2 ^ 64 → s.phase = .header → s.inp.length < s.cursor + 4 →
    ∃ t, step s = .next t ∧ FailedFrom s t (.truncated .inHeader) 0

/-- R114, R115, R129: in DONE and in FAILED no step is enabled; BODY is no resting phase. The stops' names are the
model's (log 12). -/
def Obligations.EndedDecodeTakesNoStep : Prop :=
  ∀ s : State, s.inp.length < 2 ^ 64 →
    (s.phase = .done → step s = .fault .halted) ∧ (s.phase = .failed → step s = .fault .failed) ∧
    (s.phase = .body → step s = .fault .notEnabled)

/-- R5, R11: a stream of 2^64 bytes or more is refused, in every phase. -/
def Obligations.TooLongStreamIsRefused : Prop :=
  ∀ s : State, 2 ^ 64 ≤ s.inp.length → step s = .refused .streamTooLong

/-- R12, R114: the transitions of PHASE over one step are those of the table with BODY passed through, and no others. -/
def Obligations.PhaseTransitionsAreTheTables : Prop :=
  ∀ s t : State, step s = .next t →
    (s.phase, t.phase) ∈ [(Phase.sig, Phase.header), (.sig, .failed), (.header, .header), (.header, .done),
      (.header, .failed)]

/-- R11, R30, R41, R43, R118: a step never changes the stream; unless it fails it moves the cursor forward, by four bytes
or more, and not past the end; each output grows by at most one item and loses none. -/
def Obligations.StepsMoveForward : Prop :=
  ∀ s t : State, step s = .next t →
    t.inp = s.inp ∧ (t.phase ≠ .failed → s.cursor + 4 ≤ t.cursor ∧ t.cursor ≤ t.inp.length) ∧
    (t.evt = s.evt ∨ ∃ b, t.evt = s.evt ++ [b]) ∧ (t.pay = s.pay ∨ ∃ p, t.pay = s.pay ++ [p])

/-- R30, R38, R41, R115: the core reads the stream forward and nothing else of it. A step that does not fail leaves the
stream as it is and its cursor further on; and on any other stream that has the same bytes from the old cursor to the new
it is the same step. So it never peeks ahead, never goes back, does not know N, and the audio-frame region is never seen. -/
def Obligations.StepSeesOnlyWhatItConsumes : Prop :=
  ∀ (s t : State) (m : Memory), step s = .next t → t.phase ≠ .failed → m.length < 2 ^ 64 → t.cursor ≤ m.length →
    (m.drop s.cursor).take (t.cursor - s.cursor) = (s.inp.drop s.cursor).take (t.cursor - s.cursor) →
    t.inp = s.inp ∧ s.cursor < t.cursor ∧ step { s with inp := m } = .next { t with inp := m }

/-- R23, R13 to R16: no operation reads HDR, BODY_REM, ACC, CNT or LEN before writing it. Two states that differ in
those registers alone take the same step, as far as anything else can tell. -/
def Obligations.UnwrittenRegistersInfluenceNothing : Prop :=
  ∀ (s t : State) (h : Hdr) (rem : BitVec 24) (a : BitVec 64) (c l : BitVec 32), step s = .next t →
    ∃ u, step { s with hdr := h, bodyRem := rem, acc := a, cnt := c, len := l } = .next u ∧
      { u with hdr := t.hdr, bodyRem := t.bodyRem, acc := t.acc, cnt := t.cnt, len := t.len } = t

/-! ### Invariants and whole runs -/

/-- The state after reset is sound, and a decode attempt on an accepted stream starts sound and explained (R23, R140).
The empty stream of State.reset and the stream State.launch puts in place are the model's choice (log 13). -/
def Obligations.ResetAndLaunchAreSound : Prop :=
  Inv State.reset ∧ ∀ m : Memory, m.length < 2 ^ 64 → Inv (State.launch m) ∧ Inv.Explained (State.launch m)

/-- R14, R17, R19, R22, R76, R86, R115, R128, R144: every step of a sound state leaves a sound state: the framing
invariant, the records' lengths, ERR exactly in FAILED, no record under construction, the last-flag, the payloads. -/
def Obligations.StepKeepsSoundness : Prop :=
  ∀ s t : State, Inv s → step s = .next t → Inv t

/-- R39, R41, R50: every step keeps the consumed bytes explained: they are the signature and whole blocks, byte for byte
those of the records on EVT in order, and PAY holds those blocks' payloads. -/
def Obligations.StepKeepsTheStreamExplained : Prop :=
  ∀ s t : State, Inv s → Inv.Explained s → step s = .next t → Inv.Explained t

/-- R118: from every sound state the decode ends, within one step more than its headers can take. It rests on a stream
source that does not stall (R147, the spec's D22; log 2) and on the model's choice that the sink always answers (log 8,
unsafe). -/
def Obligations.EveryDecodeEnds : Prop :=
  ∀ s : State, Inv s → ∃ (k : Nat) (t : State), k ≤ (if s.inp.length < 4 then 1 else 2 + (s.inp.length - 4) / 4) ∧
    Host.Core.run Sys2Proof.core k s = .next t ∧ t.ended

/-- R116: on every stream, with the sink's answers numbered from any draw, the machine ends with the outcome, the EVT
history and the PAY history of the reference function. The numbering of the sink's answers by `draws` is the model's
choice (log 7), as is that the sink always answers (log 8, unsafe); the stream does not stall (log 2). -/
def Obligations.MachineComputesTheReferenceFunction : Prop :=
  ∀ (m : Memory) (first : Nat), m.length < 2 ^ 64 →
    ∃ (k : Nat) (t : State), Host.Core.run Sys2Proof.core k { State.launch m with draws := first } = .next t ∧ t.ended ∧
      t.observed = refDecode m Config.paySink first
end

