-- ==== Sys2Proof/Laws/Bytes.lean ====
section
/-! SUPPORT. Byte order: values and byte sequences determine each other, and a value of `k` bytes is below 256^k. -/

namespace Sys2Proof

@[simp] theorem length_beBytes (k v : Nat) : (beBytes k v).length = k := by
  induction k with
  | zero => rfl
  | succ k ih => simp [beBytes, ih]

@[simp] theorem length_leBytes (k v : Nat) : (leBytes k v).length = k := by
  induction k generalizing v with
  | zero => rfl
  | succ k ih => simp [leBytes, ih]

theorem beNat_lt (b : List Byte) : beNat b < 256 ^ b.length := by
  induction b with
  | nil => simp [beNat]
  | cons x xs ih =>
    have hx : x.toNat < 256 := x.isLt
    have : x.toNat * 256 ^ xs.length + 256 ^ xs.length ≤ 256 * 256 ^ xs.length := by
      have := Nat.mul_le_mul_right (256 ^ xs.length) (show x.toNat + 1 ≤ 256 from hx)
      rwa [Nat.add_mul, Nat.one_mul] at this
    simp only [beNat, List.length_cons, Nat.pow_succ]
    omega

theorem leNat_lt (b : List Byte) : leNat b < 256 ^ b.length := by
  induction b with
  | nil => simp [leNat]
  | cons x xs ih =>
    have hx : x.toNat < 256 := x.isLt
    simp only [leNat, List.length_cons, Nat.pow_succ]
    omega

theorem beNat_beBytes (k v : Nat) : beNat (beBytes k v) = v % 256 ^ k := by
  induction k with
  | zero => simp [beBytes, beNat, Nat.mod_one]
  | succ k ih =>
    simp only [beBytes, beNat, length_beBytes, ih, BitVec.toNat_ofNat, Nat.pow_succ]
    rw [Nat.mod_mul (a := 256 ^ k) (b := 256), Nat.mul_comm, Nat.add_comm]

theorem leNat_leBytes (k v : Nat) : leNat (leBytes k v) = v % 256 ^ k := by
  induction k generalizing v with
  | zero => simp [leBytes, leNat, Nat.mod_one]
  | succ k ih =>
    simp only [leBytes, leNat, ih, BitVec.toNat_ofNat, Nat.pow_succ']
    rw [Nat.mod_mul (a := 256) (b := 256 ^ k)]

theorem beBytes_mod (k m v : Nat) (h : k ≤ m) : beBytes k (v % 256 ^ m) = beBytes k v := by
  induction k with
  | zero => rfl
  | succ k ih =>
    simp only [beBytes]
    refine congrArg₂ _ (BitVec.eq_of_toNat_eq ?_) (ih (by omega))
    obtain ⟨d, rfl⟩ : ∃ d, m = k + 1 + d := ⟨m - (k + 1), by omega⟩
    simp only [BitVec.toNat_ofNat]
    rw [show k + 1 + d = k + (d + 1) by omega, Nat.pow_add, Nat.mod_mul_right_div_self, Nat.pow_succ]
    exact Nat.mod_mod_of_dvd _ ⟨256 ^ d, by rw [Nat.mul_comm]⟩

/-- A byte sequence is the big-endian writing of its value. -/
theorem beBytes_beNat (b : List Byte) : beBytes b.length (beNat b) = b := by
  induction b with
  | nil => rfl
  | cons x xs ih =>
    have hp : 0 < 256 ^ xs.length := Nat.pow_pos (by decide)
    have hx := beNat_lt xs
    simp only [List.length_cons, beBytes, beNat]
    refine congrArg₂ _ (BitVec.eq_of_toNat_eq ?_) ?_
    · rw [Nat.mul_comm, Nat.mul_add_div hp, Nat.div_eq_of_lt hx]
      simp
    · rw [← beBytes_mod _ xs.length _ (Nat.le_refl _), Nat.mul_comm, Nat.mul_add_mod, Nat.mod_eq_of_lt hx, ih]

/-- A byte sequence is the little-endian writing of its value. -/
theorem leBytes_leNat (b : List Byte) : leBytes b.length (leNat b) = b := by
  induction b with
  | nil => rfl
  | cons x xs ih =>
    have hx : x.toNat < 256 := x.isLt
    simp only [List.length_cons, leBytes, leNat]
    refine congrArg₂ _ (BitVec.eq_of_toNat_eq ?_) ?_
    · simp only [BitVec.toNat_ofNat]
      omega
    · rw [Nat.add_mul_div_left _ _ (by decide), Nat.div_eq_of_lt hx, Nat.zero_add, ih]

/-- `beNat` inverts `beBytes` on values that fit. -/
theorem beNat_beBytes_of_lt {k v : Nat} (h : v < 256 ^ k) : beNat (beBytes k v) = v := by
  rw [beNat_beBytes, Nat.mod_eq_of_lt h]

/-- `leNat` inverts `leBytes` on values that fit. -/
theorem leNat_leBytes_of_lt {k v : Nat} (h : v < 256 ^ k) : leNat (leBytes k v) = v := by
  rw [leNat_leBytes, Nat.mod_eq_of_lt h]

/-- The word of four bytes and more is the word of the first four. -/
theorem wordOfBytes_append {b rest : List Byte} (h : b.length = 4) : wordOfBytes (b ++ rest) = wordOfBytes b := by
  simp [wordOfBytes, ← h]

/-- A word written as four bytes reads back. -/
theorem wordOfBytes_beBytes (w : BitVec 32) : wordOfBytes (beBytes 4 w.toNat) = w := by
  have hlen : (beBytes 4 w.toNat).length = 4 := length_beBytes 4 _
  rw [wordOfBytes, List.take_of_length_le (by omega), beNat_beBytes_of_lt (by have := w.isLt; omega)]
  simp

/-! ### The header triple in a word (R52, R53) -/

@[simp] theorem hdrBlockType_headerWord (isLast : Bool) (t : BitVec 7) (length : BitVec 24) :
    hdrBlockType (headerWord isLast t length) = t := by
  apply BitVec.eq_of_getLsbD_eq
  intro i hi
  simp only [hdrBlockType, headerWord, BitVec.getLsbD_extractLsb', BitVec.getLsbD_append]
  simp [hi, show ¬ 24 + i < 24 by omega]

@[simp] theorem hdrIsLast_headerWord (isLast : Bool) (t : BitVec 7) (length : BitVec 24) :
    hdrIsLast (headerWord isLast t length) = isLast := by
  simp only [hdrIsLast, headerWord, BitVec.getLsbD_append]
  simp

@[simp] theorem hdrLength_headerWord (isLast : Bool) (t : BitVec 7) (length : BitVec 24) :
    hdrLength (headerWord isLast t length) = length := by
  apply BitVec.eq_of_getLsbD_eq
  intro i hi
  simp only [hdrLength, headerWord, BitVec.getLsbD_extractLsb', BitVec.getLsbD_append]
  simp [hi]

/-- A header word is decoded by its type code. -/
theorem decodeHeaderWord_headerWord (isLast : Bool) (t : BitVec 7) (length : BitVec 24) :
    decodeHeaderWord (headerWord isLast t length) = instrOfCode t isLast length := by
  simp [decodeHeaderWord]

/-- A word is the header word of its own fields. -/
theorem headerWord_fields (w : BitVec 32) : headerWord (hdrIsLast w) (hdrBlockType w) (hdrLength w) = w := by
  apply BitVec.eq_of_getLsbD_eq
  intro i hi
  simp only [headerWord, hdrIsLast, hdrBlockType, hdrLength, BitVec.getLsbD_append, BitVec.getLsbD_extractLsb',
    BitVec.getLsbD_ofBool]
  by_cases h : i < 24
  · simp [h]
  · by_cases h' : i - 24 < 7
    · simp [h, h', show 24 + (i - 24) = i by omega]
    · obtain rfl : i = 31 := by omega
      simp

end Sys2Proof
end

