-- ==== Sys2Proof/Laws/Codes.lean ====
section
/-! SUPPORT. The opcode map read backward (R54): what a type code is decoded to, encodes to that code. -/

namespace Sys2Proof

/-- A property of the instruction of a type code holds of all 128 codes if it holds of each. -/
theorem forall_code {P : BitVec 7 → Prop} (h : ∀ k < 128, P (BitVec.ofNat 7 k)) (t : BitVec 7) : P t := by
  have := h t.toNat t.isLt
  simpa using this

theorem slot_instrOfCode (t : BitVec 7) (isLast : Bool) (length : BitVec 24) :
    (instrOfCode t isLast length).slot = .header :=
  forall_code (P := fun t => (instrOfCode t isLast length).slot = .header)
    (fun k hk => by interval_cases k <;> rfl) t

theorem encodeWord_instrOfCode (t : BitVec 7) (isLast : Bool) (length : BitVec 24) :
    encodeWord (instrOfCode t isLast length) = headerWord isLast t length :=
  forall_code (P := fun t => encodeWord (instrOfCode t isLast length) = headerWord isLast t length)
    (fun k hk => by interval_cases k <;> rfl) t

/-- The instruction of a header word belongs to the header slot and has that word. -/
theorem slot_decodeHeaderWord (w : BitVec 32) : (decodeHeaderWord w).slot = .header := slot_instrOfCode _ _ _

theorem encodeWord_decodeHeaderWord (w : BitVec 32) : encodeWord (decodeHeaderWord w) = w := by
  rw [decodeHeaderWord, encodeWord_instrOfCode, headerWord_fields]

end Sys2Proof
end

