-- ==== Sys2Proof/Laws/State.lean ====
section
/-! SUPPORT. One lemma per field per update of State, so that no proof unfolds a record update. -/

namespace Sys2Proof.Machine

variable (s : State)

@[simp] theorem setAcc_inp (v : BitVec 64) : (s.setAcc v).inp = s.inp := rfl
@[simp] theorem setAcc_cursor (v : BitVec 64) : (s.setAcc v).cursor = s.cursor := rfl
@[simp] theorem setAcc_phase (v : BitVec 64) : (s.setAcc v).phase = s.phase := rfl
@[simp] theorem setAcc_hdr (v : BitVec 64) : (s.setAcc v).hdr = s.hdr := rfl
@[simp] theorem setAcc_bodyRem (v : BitVec 64) : (s.setAcc v).bodyRem = s.bodyRem := rfl
@[simp] theorem setAcc_acc (v : BitVec 64) : (s.setAcc v).acc = v := rfl
@[simp] theorem setAcc_cnt (v : BitVec 64) : (s.setAcc v).cnt = s.cnt := rfl
@[simp] theorem setAcc_len (v : BitVec 64) : (s.setAcc v).len = s.len := rfl
@[simp] theorem setAcc_err (v : BitVec 64) : (s.setAcc v).err = s.err := rfl
@[simp] theorem setAcc_blk (v : BitVec 64) : (s.setAcc v).blk = s.blk := rfl
@[simp] theorem setAcc_evt (v : BitVec 64) : (s.setAcc v).evt = s.evt := rfl
@[simp] theorem setAcc_pay (v : BitVec 64) : (s.setAcc v).pay = s.pay := rfl
@[simp] theorem setAcc_sinkHeld (v : BitVec 64) : (s.setAcc v).sinkHeld = s.sinkHeld := rfl
@[simp] theorem setAcc_draws (v : BitVec 64) : (s.setAcc v).draws = s.draws := rfl

@[simp] theorem setCnt_inp (v : BitVec 32) : (s.setCnt v).inp = s.inp := rfl
@[simp] theorem setCnt_cursor (v : BitVec 32) : (s.setCnt v).cursor = s.cursor := rfl
@[simp] theorem setCnt_phase (v : BitVec 32) : (s.setCnt v).phase = s.phase := rfl
@[simp] theorem setCnt_hdr (v : BitVec 32) : (s.setCnt v).hdr = s.hdr := rfl
@[simp] theorem setCnt_bodyRem (v : BitVec 32) : (s.setCnt v).bodyRem = s.bodyRem := rfl
@[simp] theorem setCnt_acc (v : BitVec 32) : (s.setCnt v).acc = s.acc := rfl
@[simp] theorem setCnt_cnt (v : BitVec 32) : (s.setCnt v).cnt = v := rfl
@[simp] theorem setCnt_len (v : BitVec 32) : (s.setCnt v).len = s.len := rfl
@[simp] theorem setCnt_err (v : BitVec 32) : (s.setCnt v).err = s.err := rfl
@[simp] theorem setCnt_blk (v : BitVec 32) : (s.setCnt v).blk = s.blk := rfl
@[simp] theorem setCnt_evt (v : BitVec 32) : (s.setCnt v).evt = s.evt := rfl
@[simp] theorem setCnt_pay (v : BitVec 32) : (s.setCnt v).pay = s.pay := rfl
@[simp] theorem setCnt_sinkHeld (v : BitVec 32) : (s.setCnt v).sinkHeld = s.sinkHeld := rfl
@[simp] theorem setCnt_draws (v : BitVec 32) : (s.setCnt v).draws = s.draws := rfl

@[simp] theorem setLen_inp (v : BitVec 32) : (s.setLen v).inp = s.inp := rfl
@[simp] theorem setLen_cursor (v : BitVec 32) : (s.setLen v).cursor = s.cursor := rfl
@[simp] theorem setLen_phase (v : BitVec 32) : (s.setLen v).phase = s.phase := rfl
@[simp] theorem setLen_hdr (v : BitVec 32) : (s.setLen v).hdr = s.hdr := rfl
@[simp] theorem setLen_bodyRem (v : BitVec 32) : (s.setLen v).bodyRem = s.bodyRem := rfl
@[simp] theorem setLen_acc (v : BitVec 32) : (s.setLen v).acc = s.acc := rfl
@[simp] theorem setLen_cnt (v : BitVec 32) : (s.setLen v).cnt = s.cnt := rfl
@[simp] theorem setLen_len (v : BitVec 32) : (s.setLen v).len = v := rfl
@[simp] theorem setLen_err (v : BitVec 32) : (s.setLen v).err = s.err := rfl
@[simp] theorem setLen_blk (v : BitVec 32) : (s.setLen v).blk = s.blk := rfl
@[simp] theorem setLen_evt (v : BitVec 32) : (s.setLen v).evt = s.evt := rfl
@[simp] theorem setLen_pay (v : BitVec 32) : (s.setLen v).pay = s.pay := rfl
@[simp] theorem setLen_sinkHeld (v : BitVec 32) : (s.setLen v).sinkHeld = s.sinkHeld := rfl
@[simp] theorem setLen_draws (v : BitVec 32) : (s.setLen v).draws = s.draws := rfl

@[simp] theorem setHdr_inp (h : Hdr) : (s.setHdr h).inp = s.inp := rfl
@[simp] theorem setHdr_cursor (h : Hdr) : (s.setHdr h).cursor = s.cursor := rfl
@[simp] theorem setHdr_phase (h : Hdr) : (s.setHdr h).phase = s.phase := rfl
@[simp] theorem setHdr_hdr (h : Hdr) : (s.setHdr h).hdr = h := rfl
@[simp] theorem setHdr_bodyRem (h : Hdr) : (s.setHdr h).bodyRem = s.bodyRem := rfl
@[simp] theorem setHdr_acc (h : Hdr) : (s.setHdr h).acc = s.acc := rfl
@[simp] theorem setHdr_cnt (h : Hdr) : (s.setHdr h).cnt = s.cnt := rfl
@[simp] theorem setHdr_len (h : Hdr) : (s.setHdr h).len = s.len := rfl
@[simp] theorem setHdr_err (h : Hdr) : (s.setHdr h).err = s.err := rfl
@[simp] theorem setHdr_blk (h : Hdr) : (s.setHdr h).blk = s.blk := rfl
@[simp] theorem setHdr_evt (h : Hdr) : (s.setHdr h).evt = s.evt := rfl
@[simp] theorem setHdr_pay (h : Hdr) : (s.setHdr h).pay = s.pay := rfl
@[simp] theorem setHdr_sinkHeld (h : Hdr) : (s.setHdr h).sinkHeld = s.sinkHeld := rfl
@[simp] theorem setHdr_draws (h : Hdr) : (s.setHdr h).draws = s.draws := rfl

@[simp] theorem setBlk_inp (b : Body) : (s.setBlk b).inp = s.inp := rfl
@[simp] theorem setBlk_cursor (b : Body) : (s.setBlk b).cursor = s.cursor := rfl
@[simp] theorem setBlk_phase (b : Body) : (s.setBlk b).phase = s.phase := rfl
@[simp] theorem setBlk_hdr (b : Body) : (s.setBlk b).hdr = s.hdr := rfl
@[simp] theorem setBlk_bodyRem (b : Body) : (s.setBlk b).bodyRem = s.bodyRem := rfl
@[simp] theorem setBlk_acc (b : Body) : (s.setBlk b).acc = s.acc := rfl
@[simp] theorem setBlk_cnt (b : Body) : (s.setBlk b).cnt = s.cnt := rfl
@[simp] theorem setBlk_len (b : Body) : (s.setBlk b).len = s.len := rfl
@[simp] theorem setBlk_err (b : Body) : (s.setBlk b).err = s.err := rfl
@[simp] theorem setBlk_blk (b : Body) : (s.setBlk b).blk = b := rfl
@[simp] theorem setBlk_evt (b : Body) : (s.setBlk b).evt = s.evt := rfl
@[simp] theorem setBlk_pay (b : Body) : (s.setBlk b).pay = s.pay := rfl
@[simp] theorem setBlk_sinkHeld (b : Body) : (s.setBlk b).sinkHeld = s.sinkHeld := rfl
@[simp] theorem setBlk_draws (b : Body) : (s.setBlk b).draws = s.draws := rfl

@[simp] theorem setPhase_inp (p : Phase) : (s.setPhase p).inp = s.inp := rfl
@[simp] theorem setPhase_cursor (p : Phase) : (s.setPhase p).cursor = s.cursor := rfl
@[simp] theorem setPhase_phase (p : Phase) : (s.setPhase p).phase = p := rfl
@[simp] theorem setPhase_hdr (p : Phase) : (s.setPhase p).hdr = s.hdr := rfl
@[simp] theorem setPhase_bodyRem (p : Phase) : (s.setPhase p).bodyRem = s.bodyRem := rfl
@[simp] theorem setPhase_acc (p : Phase) : (s.setPhase p).acc = s.acc := rfl
@[simp] theorem setPhase_cnt (p : Phase) : (s.setPhase p).cnt = s.cnt := rfl
@[simp] theorem setPhase_len (p : Phase) : (s.setPhase p).len = s.len := rfl
@[simp] theorem setPhase_err (p : Phase) : (s.setPhase p).err = s.err := rfl
@[simp] theorem setPhase_blk (p : Phase) : (s.setPhase p).blk = s.blk := rfl
@[simp] theorem setPhase_evt (p : Phase) : (s.setPhase p).evt = s.evt := rfl
@[simp] theorem setPhase_pay (p : Phase) : (s.setPhase p).pay = s.pay := rfl
@[simp] theorem setPhase_sinkHeld (p : Phase) : (s.setPhase p).sinkHeld = s.sinkHeld := rfl
@[simp] theorem setPhase_draws (p : Phase) : (s.setPhase p).draws = s.draws := rfl

@[simp] theorem advance_inp (n : Nat) : (s.advance n).inp = s.inp := rfl
@[simp] theorem advance_cursor (n : Nat) : (s.advance n).cursor = s.cursor + n := rfl
@[simp] theorem advance_phase (n : Nat) : (s.advance n).phase = s.phase := rfl
@[simp] theorem advance_hdr (n : Nat) : (s.advance n).hdr = s.hdr := rfl
@[simp] theorem advance_bodyRem (n : Nat) : (s.advance n).bodyRem = if s.phase = .body then s.bodyRem - BitVec.ofNat 24 n else s.bodyRem := rfl
@[simp] theorem advance_acc (n : Nat) : (s.advance n).acc = s.acc := rfl
@[simp] theorem advance_cnt (n : Nat) : (s.advance n).cnt = s.cnt := rfl
@[simp] theorem advance_len (n : Nat) : (s.advance n).len = s.len := rfl
@[simp] theorem advance_err (n : Nat) : (s.advance n).err = s.err := rfl
@[simp] theorem advance_blk (n : Nat) : (s.advance n).blk = s.blk := rfl
@[simp] theorem advance_evt (n : Nat) : (s.advance n).evt = s.evt := rfl
@[simp] theorem advance_pay (n : Nat) : (s.advance n).pay = s.pay := rfl
@[simp] theorem advance_sinkHeld (n : Nat) : (s.advance n).sinkHeld = s.sinkHeld := rfl
@[simp] theorem advance_draws (n : Nat) : (s.advance n).draws = s.draws := rfl

@[simp] theorem enterBody_inp : (s.enterBody).inp = s.inp := rfl
@[simp] theorem enterBody_cursor : (s.enterBody).cursor = s.cursor := rfl
@[simp] theorem enterBody_phase : (s.enterBody).phase = .body := rfl
@[simp] theorem enterBody_hdr : (s.enterBody).hdr = s.hdr := rfl
@[simp] theorem enterBody_bodyRem : (s.enterBody).bodyRem = s.hdr.length := rfl
@[simp] theorem enterBody_acc : (s.enterBody).acc = s.acc := rfl
@[simp] theorem enterBody_cnt : (s.enterBody).cnt = s.cnt := rfl
@[simp] theorem enterBody_len : (s.enterBody).len = s.len := rfl
@[simp] theorem enterBody_err : (s.enterBody).err = s.err := rfl
@[simp] theorem enterBody_blk : (s.enterBody).blk = .empty := rfl
@[simp] theorem enterBody_evt : (s.enterBody).evt = s.evt := rfl
@[simp] theorem enterBody_pay : (s.enterBody).pay = s.pay := rfl
@[simp] theorem enterBody_sinkHeld : (s.enterBody).sinkHeld = s.sinkHeld := rfl
@[simp] theorem enterBody_draws : (s.enterBody).draws = s.draws := rfl

@[simp] theorem emit_inp (b : Block) : (s.emit b).inp = s.inp := rfl
@[simp] theorem emit_cursor (b : Block) : (s.emit b).cursor = s.cursor := rfl
@[simp] theorem emit_phase (b : Block) : (s.emit b).phase = s.phase := rfl
@[simp] theorem emit_hdr (b : Block) : (s.emit b).hdr = s.hdr := rfl
@[simp] theorem emit_bodyRem (b : Block) : (s.emit b).bodyRem = s.bodyRem := rfl
@[simp] theorem emit_acc (b : Block) : (s.emit b).acc = s.acc := rfl
@[simp] theorem emit_cnt (b : Block) : (s.emit b).cnt = s.cnt := rfl
@[simp] theorem emit_len (b : Block) : (s.emit b).len = s.len := rfl
@[simp] theorem emit_err (b : Block) : (s.emit b).err = s.err := rfl
@[simp] theorem emit_blk (b : Block) : (s.emit b).blk = s.blk := rfl
@[simp] theorem emit_evt (b : Block) : (s.emit b).evt = s.evt ++ [b] := rfl
@[simp] theorem emit_pay (b : Block) : (s.emit b).pay = s.pay := rfl
@[simp] theorem emit_sinkHeld (b : Block) : (s.emit b).sinkHeld = s.sinkHeld := rfl
@[simp] theorem emit_draws (b : Block) : (s.emit b).draws = s.draws := rfl

@[simp] theorem holdSink_inp (b : Bool) : (s.holdSink b).inp = s.inp := rfl
@[simp] theorem holdSink_cursor (b : Bool) : (s.holdSink b).cursor = s.cursor := rfl
@[simp] theorem holdSink_phase (b : Bool) : (s.holdSink b).phase = s.phase := rfl
@[simp] theorem holdSink_hdr (b : Bool) : (s.holdSink b).hdr = s.hdr := rfl
@[simp] theorem holdSink_bodyRem (b : Bool) : (s.holdSink b).bodyRem = s.bodyRem := rfl
@[simp] theorem holdSink_acc (b : Bool) : (s.holdSink b).acc = s.acc := rfl
@[simp] theorem holdSink_cnt (b : Bool) : (s.holdSink b).cnt = s.cnt := rfl
@[simp] theorem holdSink_len (b : Bool) : (s.holdSink b).len = s.len := rfl
@[simp] theorem holdSink_err (b : Bool) : (s.holdSink b).err = s.err := rfl
@[simp] theorem holdSink_blk (b : Bool) : (s.holdSink b).blk = s.blk := rfl
@[simp] theorem holdSink_evt (b : Bool) : (s.holdSink b).evt = s.evt := rfl
@[simp] theorem holdSink_pay (b : Bool) : (s.holdSink b).pay = s.pay := rfl
@[simp] theorem holdSink_sinkHeld (b : Bool) : (s.holdSink b).sinkHeld = b := rfl
@[simp] theorem holdSink_draws (b : Bool) : (s.holdSink b).draws = s.draws := rfl

@[simp] theorem payOut_inp (p : List Byte) : (s.payOut p).inp = s.inp := rfl
@[simp] theorem payOut_cursor (p : List Byte) : (s.payOut p).cursor = s.cursor := rfl
@[simp] theorem payOut_phase (p : List Byte) : (s.payOut p).phase = s.phase := rfl
@[simp] theorem payOut_hdr (p : List Byte) : (s.payOut p).hdr = s.hdr := rfl
@[simp] theorem payOut_bodyRem (p : List Byte) : (s.payOut p).bodyRem = s.bodyRem := rfl
@[simp] theorem payOut_acc (p : List Byte) : (s.payOut p).acc = s.acc := rfl
@[simp] theorem payOut_cnt (p : List Byte) : (s.payOut p).cnt = s.cnt := rfl
@[simp] theorem payOut_len (p : List Byte) : (s.payOut p).len = s.len := rfl
@[simp] theorem payOut_err (p : List Byte) : (s.payOut p).err = s.err := rfl
@[simp] theorem payOut_blk (p : List Byte) : (s.payOut p).blk = s.blk := rfl
@[simp] theorem payOut_evt (p : List Byte) : (s.payOut p).evt = s.evt := rfl
@[simp] theorem payOut_pay (p : List Byte) : (s.payOut p).pay = s.pay ++ [p] := rfl
@[simp] theorem payOut_sinkHeld (p : List Byte) : (s.payOut p).sinkHeld = s.sinkHeld := rfl
@[simp] theorem payOut_draws (p : List Byte) : (s.payOut p).draws = s.draws + 1 := rfl

@[simp] theorem failureEntry_inp (r : Reason) (i : BitVec 32) : (s.failureEntry r i).inp = s.inp := rfl
@[simp] theorem failureEntry_cursor (r : Reason) (i : BitVec 32) : (s.failureEntry r i).cursor = (Config.failedCursor s.draws).toNat := rfl
@[simp] theorem failureEntry_phase (r : Reason) (i : BitVec 32) : (s.failureEntry r i).phase = .failed := rfl
@[simp] theorem failureEntry_hdr (r : Reason) (i : BitVec 32) : (s.failureEntry r i).hdr = ⟨Config.failedIsLast s.draws, Config.failedBlockType s.draws, Config.failedLength s.draws⟩ := rfl
@[simp] theorem failureEntry_bodyRem (r : Reason) (i : BitVec 32) : (s.failureEntry r i).bodyRem = Config.failedBodyRem s.draws := rfl
@[simp] theorem failureEntry_acc (r : Reason) (i : BitVec 32) : (s.failureEntry r i).acc = Config.failedAcc s.draws := rfl
@[simp] theorem failureEntry_cnt (r : Reason) (i : BitVec 32) : (s.failureEntry r i).cnt = Config.failedCnt s.draws := rfl
@[simp] theorem failureEntry_len (r : Reason) (i : BitVec 32) : (s.failureEntry r i).len = Config.failedLen s.draws := rfl
@[simp] theorem failureEntry_err (r : Reason) (i : BitVec 32) : (s.failureEntry r i).err = ⟨r, i⟩ := rfl
@[simp] theorem failureEntry_blk (r : Reason) (i : BitVec 32) : (s.failureEntry r i).blk = .empty := rfl
@[simp] theorem failureEntry_evt (r : Reason) (i : BitVec 32) : (s.failureEntry r i).evt = s.evt := rfl
@[simp] theorem failureEntry_pay (r : Reason) (i : BitVec 32) : (s.failureEntry r i).pay = s.pay := rfl
@[simp] theorem failureEntry_sinkHeld (r : Reason) (i : BitVec 32) : (s.failureEntry r i).sinkHeld = s.sinkHeld := rfl
@[simp] theorem failureEntry_draws (r : Reason) (i : BitVec 32) : (s.failureEntry r i).draws = s.draws + 1 := rfl

end Sys2Proof.Machine
end

