-- ==== Sys2Proof/Laws/Ops.lean ====
section
/-! SUPPORT. One lemma per shared operation: what it answers, and everything it can answer. -/

namespace Sys2Proof.Machine

/-! ### Sequencing -/

@[simp] theorem op_pure {α : Type} (a : α) (s : State) : (pure a : Op α) s = .ok (a, s) := rfl

theorem op_bind {α β : Type} (x : Op α) (f : α → Op β) (s : State) :
    (x >>= f) s = match x s with | .ok (a, t) => f a t | .error e => .error e := by
  show (StateT.bind x f) s = _
  simp only [StateT.bind, bind, Except.bind]
  cases x s <;> rfl

theorem op_bind_ok {α β : Type} {x : Op α} {s t : State} {a : α} (h : x s = .ok (a, t)) (f : α → Op β) :
    (x >>= f) s = f a t := by rw [op_bind, h]

theorem op_bind_error {α β : Type} {x : Op α} {s e : State} (h : x s = .error e) (f : α → Op β) :
    (x >>= f) s = .error e := by rw [op_bind, h]

@[simp] theorem update_apply (f : State → State) (s : State) : update f s = .ok ((), f s) := rfl

@[simp] theorem look_apply {α : Type} (f : State → α) (s : State) : look f s = .ok (f s, s) := rfl

@[simp] theorem raise_apply {α : Type} (r : Reason) (i : BitVec 32) (s : State) :
    (raise r i : Op α) s = .error (s.failureEntry r i) := rfl

@[simp] theorem update_bind {β : Type} (f : State → State) (g : Unit → Op β) (s : State) :
    (update f >>= g) s = g () (f s) := op_bind_ok rfl g

@[simp] theorem look_bind {α β : Type} (f : State → α) (g : α → Op β) (s : State) :
    (look f >>= g) s = g (f s) s := op_bind_ok rfl g

@[simp] theorem update_map {β : Type} (f : State → State) (g : Unit → β) (s : State) :
    (g <$> update f) s = .ok (g (), f s) := rfl

@[simp] theorem raise_bind {α β : Type} (r : Reason) (i : BitVec 32) (g : α → Op β) (s : State) :
    ((raise r i : Op α) >>= g) s = .error (s.failureEntry r i) := op_bind_error rfl g

/-! ### Reading the stream -/

/-- MemRead answers exactly the window, or meets end-of-stream (R31). -/
theorem memRead_eq_some_iff {m : Memory} {addr n : Nat} {b : List Byte} :
    memRead m addr n = some b ↔ addr + n ≤ m.length ∧ b = (m.drop addr).take n := by
  unfold memRead
  split <;> simp_all [eq_comm]

theorem memRead_eq_none_iff {m : Memory} {addr n : Nat} : memRead m addr n = none ↔ m.length < addr + n := by
  unfold memRead
  split <;> simp_all

/-- The window fits: the `n` bytes at the cursor, and the state advanced (R70). -/
theorem take_ok {s : State} {n : Nat} (hw : s.phase = .body → n ≤ s.bodyRem.toNat)
    (hn : s.cursor + n ≤ s.inp.length) : take n s = .ok ((s.inp.drop s.cursor).take n, s.advance n) := by
  have : ¬(s.phase = .body ∧ s.bodyRem.toNat < n) := fun h => by have := hw h.1; omega
  rw [take, if_neg this, memRead_eq_some_iff.2 ⟨hn, rfl⟩]

/-- Check 1 of R70: the body window. -/
theorem take_overread {s : State} {n : Nat} (hp : s.phase = .body) (h : s.bodyRem.toNat < n) :
    take n s = .error (s.failureEntry (.format .bodyOverread) (BitVec.ofNat 32 n)) := by
  rw [take, if_pos ⟨hp, h⟩]

/-- Check 2 of R70: the stream. -/
theorem take_truncated {s : State} {n : Nat} (hw : s.phase = .body → n ≤ s.bodyRem.toNat)
    (hn : s.inp.length < s.cursor + n) :
    take n s = .error (s.failureEntry (.truncated (readPlace s.phase)) 0) := by
  have : ¬(s.phase = .body ∧ s.bodyRem.toNat < n) := fun h => by have := hw h.1; omega
  rw [take, if_neg this, memRead_eq_none_iff.2 hn]

/-- Everything `Take(n)` can answer (R70). -/
theorem take_cases (n : Nat) (s : State) :
    ((s.phase = .body → n ≤ s.bodyRem.toNat) ∧ s.cursor + n ≤ s.inp.length ∧
      take n s = .ok ((s.inp.drop s.cursor).take n, s.advance n)) ∨
    (s.phase = .body ∧ s.bodyRem.toNat < n ∧
      take n s = .error (s.failureEntry (.format .bodyOverread) (BitVec.ofNat 32 n))) ∨
    ((s.phase = .body → n ≤ s.bodyRem.toNat) ∧ s.inp.length < s.cursor + n ∧
      take n s = .error (s.failureEntry (.truncated (readPlace s.phase)) 0)) := by
  by_cases hb : s.phase = .body ∧ s.bodyRem.toNat < n
  · exact .inr (.inl ⟨hb.1, hb.2, take_overread hb.1 hb.2⟩)
  · have hw : s.phase = .body → n ≤ s.bodyRem.toNat := fun h => by
      rw [not_and] at hb
      have := hb h
      omega
    by_cases hn : s.cursor + n ≤ s.inp.length
    · exact .inl ⟨hw, hn, take_ok hw hn⟩
    · exact .inr (.inr ⟨hw, by omega, take_truncated hw (by omega)⟩)

/-- Take changes no byte of the stream, whether it answers or raises; nor does the only other operation over memory, the
handoff to PAY (R41, R43). So every operation keeps `Memory.wf`. -/
theorem take_inp {n : Nat} {s t : State} (h : (∃ b, take n s = .ok (b, t)) ∨ take n s = .error t) : t.inp = s.inp := by
  rcases take_cases n s with ⟨_, _, k⟩ | ⟨_, _, k⟩ | ⟨_, _, k⟩ <;> rw [k] at h <;> rcases h with ⟨b, h⟩ | h <;> cases h <;> rfl

theorem take_wf {n : Nat} {s t : State} (h : (∃ b, take n s = .ok (b, t)) ∨ take n s = .error t) :
    t.inp.wf = s.inp.wf := by rw [take_inp h]

theorem memWritePay_wf {p : List Byte} {s t : State} {r : Ref} (h : memWritePay p s = .ok (r, t)) : t.inp.wf = s.inp.wf := by
  simp only [memWritePay, update_bind, look_bind, op_pure] at h
  cases h
  rfl

theorem reset_wf : State.reset.inp.wf = true := by decide

/-! ### Ending a step -/

/-- In the phase it is enabled in, an operation always answers a next state (R114). -/
theorem runIn_enabled {p : Phase} {op : Op Unit} {s : State} (h : s.phase = p) :
    ∃ t, runIn p op s = .next t ∧ (op s = .ok ((), t) ∨ op s = .error t) := by
  rw [runIn, if_pos h]
  cases hop : op s with
  | error t => exact ⟨t, rfl, .inr rfl⟩
  | ok r => exact ⟨r.2, rfl, .inl rfl⟩

theorem runIn_ok {p : Phase} {op : Op Unit} {s t : State} (h : s.phase = p) (ho : op s = .ok ((), t)) :
    runIn p op s = .next t := by rw [runIn, if_pos h, ho]

theorem runIn_error {p : Phase} {op : Op Unit} {s t : State} (h : s.phase = p) (ho : op s = .error t) :
    runIn p op s = .next t := by rw [runIn, if_pos h, ho]

theorem runIn_disabled {p : Phase} (op : Op Unit) {s : State} (h : s.phase ≠ p) :
    runIn p op s = .fault .notEnabled := by rw [runIn, if_neg h]

/-! ### Body entry and CLOSE -/

/-- The framing check passes: the record is on EVT (R86). -/
theorem close_ok {s : State} (h : s.bodyRem = 0) :
    close s = .ok ((), ((s.emit ⟨s.hdr.isLast, s.hdr.blockType, s.hdr.length, s.blk⟩).setBlk .empty).setPhase
      (phaseAfterClose s.hdr.isLast)) := by
  rw [close, if_neg (by simp [h])]

/-- The framing check fails (R86). -/
theorem close_underread {s : State} (h : s.bodyRem ≠ 0) :
    close s = .error (s.failureEntry (.format .bodyUnderread) (s.bodyRem.setWidth 32)) := by
  rw [close, if_pos h]

/-- A block is its parser and CLOSE, in the state DISPATCH prepares (R81). -/
theorem decodeBlock_apply (t : BitVec 7) (isLast : Bool) (length : BitVec 24) (parser : Op Unit) (s : State) :
    decodeBlock t isLast length parser s = (parser >>= fun _ => close) (s.setHdr ⟨isLast, t, length⟩).enterBody := by
  simp [decodeBlock, writeHdr]

/-- A type without a parser raises, whatever the stream holds (R82 to R85). -/
theorem rejectBlock_apply (c : UnsupportedCause) (t : BitVec 7) (isLast : Bool) (length : BitVec 24) (s : State) :
    rejectBlock c t isLast length s =
      .error ((s.setHdr ⟨isLast, t, length⟩).failureEntry (.unsupported c) (t.setWidth 32)) := by
  simp [rejectBlock, writeHdr]

/-- The payload handoff never fails, and is one transaction (R48, R109). -/
theorem memWritePay_apply (p : List Byte) (s : State) :
    memWritePay p s = .ok (Config.paySink s.draws p, ((s.holdSink true).payOut p).holdSink false) := by
  simp [memWritePay]

end Sys2Proof.Machine
end

