-- ==== Sys2Proof/Laws/Holds.lean ====
section
/-! SUPPORT. Reading forward: when the body window and the stream hold the bytes an operand form stands for, reading it answers the
operand, and the state has moved past those bytes. -/

namespace Sys2Proof.Machine

/-- `s` after reading `n` bytes, with what the reads left in ACC, CNT and LEN. -/
def State.moved (n : Nat) (a : BitVec 64) (c l : BitVec 32) (s : State) : State :=
  { s.advance n with acc := a, cnt := c, len := l }

section
variable (n : Nat) (a : BitVec 64) (c l : BitVec 32) (s : State)

@[simp] theorem moved_inp : (s.moved n a c l).inp = s.inp := rfl
@[simp] theorem moved_cursor : (s.moved n a c l).cursor = s.cursor + n := rfl
@[simp] theorem moved_phase : (s.moved n a c l).phase = s.phase := rfl
@[simp] theorem moved_hdr : (s.moved n a c l).hdr = s.hdr := rfl
@[simp] theorem moved_acc : (s.moved n a c l).acc = a := rfl
@[simp] theorem moved_cnt : (s.moved n a c l).cnt = c := rfl
@[simp] theorem moved_len : (s.moved n a c l).len = l := rfl
@[simp] theorem moved_err : (s.moved n a c l).err = s.err := rfl
@[simp] theorem moved_blk : (s.moved n a c l).blk = s.blk := rfl
@[simp] theorem moved_evt : (s.moved n a c l).evt = s.evt := rfl
@[simp] theorem moved_pay : (s.moved n a c l).pay = s.pay := rfl
@[simp] theorem moved_sinkHeld : (s.moved n a c l).sinkHeld = s.sinkHeld := rfl
@[simp] theorem moved_draws : (s.moved n a c l).draws = s.draws := rfl

theorem moved_bodyRem_eq : (s.moved n a c l).bodyRem =
    if s.phase = .body then s.bodyRem - BitVec.ofNat 24 n else s.bodyRem := rfl

theorem advance_eq_moved : s.advance n = s.moved n s.acc s.cnt s.len := rfl
@[simp] theorem moved_setAcc (v : BitVec 64) : (s.moved n a c l).setAcc v = s.moved n v c l := rfl
@[simp] theorem moved_setCnt (v : BitVec 32) : (s.moved n a c l).setCnt v = s.moved n a v l := rfl
@[simp] theorem moved_setLen (v : BitVec 32) : (s.moved n a c l).setLen v = s.moved n a c v := rfl

/-- Two moves are one. -/
@[simp] theorem moved_moved (m : Nat) (a' : BitVec 64) (c' l' : BitVec 32) :
    (s.moved n a c l).moved m a' c' l' = s.moved (n + m) a' c' l' := by
  apply State.ext <;> try rfl
  · exact Nat.add_assoc _ _ _
  · simp only [moved_bodyRem_eq, moved_phase]
    by_cases h : s.phase = .body
    · simp [h, BitVec.sub_sub, BitVec.ofNat_add]
    · simp [h]

@[simp] theorem moved_zero : s.moved 0 a c l = { s with acc := a, cnt := c, len := l } := by
  apply State.ext <;> simp [moved_bodyRem_eq]
end

/-- The body window and the stream hold `bytes` next. -/
structure State.Holds (s : State) (bytes : List Byte) : Prop where
  body : s.phase = .body
  fits : bytes.length ≤ s.bodyRem.toNat
  ahead : s.ahead bytes

theorem State.Holds.left {s : State} {b c : List Byte} (h : s.Holds (b ++ c)) : s.Holds b :=
  ⟨h.body, by have := h.fits; simp at this; omega, (List.prefix_append b c).trans h.ahead⟩

/-- What is left in the window after a move inside it. -/
theorem moved_bodyRem {s : State} (hp : s.phase = .body) {n : Nat} (h : n ≤ s.bodyRem.toNat) (a : BitVec 64)
    (c l : BitVec 32) : (s.moved n a c l).bodyRem.toNat = s.bodyRem.toNat - n := by
  have hlt := s.bodyRem.isLt
  show (if s.phase = .body then s.bodyRem - BitVec.ofNat 24 n else s.bodyRem).toNat = _
  rw [if_pos hp, BitVec.toNat_sub, BitVec.toNat_ofNat]
  omega

theorem State.Holds.right {s : State} {b c : List Byte} (h : s.Holds (b ++ c)) {n : Nat} (hn : n = b.length)
    (a : BitVec 64) (k l : BitVec 32) : (s.moved n a k l).Holds c := by
  subst hn
  have hf := h.fits
  simp only [List.length_append] at hf
  refine ⟨h.body, ?_, ?_⟩
  · rw [moved_bodyRem h.body (by omega)]
    omega
  · obtain ⟨r, hr⟩ := h.ahead
    refine ⟨r, ?_⟩
    have := congrArg (List.drop b.length) hr
    simpa [List.drop_drop, List.append_assoc] using this

theorem State.Holds.nil {s : State} (h : s.phase = .body) : s.Holds [] := ⟨h, Nat.zero_le _, List.nil_prefix⟩

/-- The bytes ahead are inside the stream (for a cursor inside it). -/
theorem State.ahead.fits {s : State} {b : List Byte} (h : s.ahead b) (hb : b ≠ []) :
    s.cursor + b.length ≤ s.inp.length := by
  have hl := h.length_le
  have : 0 < b.length := List.length_pos_iff.2 hb
  simp only [List.length_drop] at hl
  omega

theorem State.ahead.take_eq {s : State} {b : List Byte} (h : s.ahead b) : (s.inp.drop s.cursor).take b.length = b :=
  (List.prefix_iff_eq_take.1 h).symm

/-- Take, on bytes that are there. -/
theorem take_holds {s : State} {b : List Byte} (h : s.Holds b) (hc : s.cursor ≤ s.inp.length) :
    take b.length s = .ok (b, s.moved b.length s.acc s.cnt s.len) := by
  rw [take_ok (fun _ => h.fits), h.ahead.take_eq, advance_eq_moved]
  by_cases hb : b = []
  · simpa [hb] using hc
  · exact h.ahead.fits hb

theorem take_holds_of_length {s : State} {b : List Byte} {n : Nat} (h : s.Holds b) (hc : s.cursor ≤ s.inp.length)
    (hn : n = b.length) : take n s = .ok (b, s.moved n s.acc s.cnt s.len) := hn ▸ take_holds h hc

/-- READ_BE, on the bytes of a value (R71). -/
theorem readBE_holds {s : State} {w : Width} {v : Nat} (hv : v < 256 ^ w.bytes) (h : s.Holds (beBytes w.bytes v))
    (hc : s.cursor ≤ s.inp.length) : readBE w s = .ok (v, s.moved w.bytes (BitVec.ofNat 64 v) s.cnt s.len) := by
  rw [readBE, op_bind_ok (take_holds_of_length h hc (by simp))]
  simp [beNat_beBytes_of_lt hv]

/-- READ_LE, on the bytes of a value (R72). -/
theorem readLE_holds {s : State} {w : Width} {v : Nat} (hv : v < 256 ^ w.bytes) (h : s.Holds (leBytes w.bytes v))
    (hc : s.cursor ≤ s.inp.length) : readLE w s = .ok (v, s.moved w.bytes (BitVec.ofNat 64 v) s.cnt s.len) := by
  rw [readLE, op_bind_ok (take_holds_of_length h hc (by simp))]
  simp [leNat_leBytes_of_lt hv]

/-- The window is shorter than 2^24 bytes, so lengths inside it fit 32 bits. -/
theorem State.Holds.length_lt {s : State} {b : List Byte} (h : s.Holds b) : b.length < 2 ^ 24 :=
  Nat.lt_of_le_of_lt h.fits s.bodyRem.isLt

/-- The string after its prefix. -/
theorem stringOfLen_holds {s : State} {b : List Byte} (h : s.Holds b) (hc : s.cursor ≤ s.inp.length) :
    stringOfLen b.length s = .ok (b, s.moved b.length s.acc s.cnt (BitVec.ofNat 32 b.length)) := by
  have hl := h.length_lt
  have h' : (s.setLen (BitVec.ofNat 32 b.length)).Holds b := ⟨h.body, h.fits, h.ahead⟩
  simp only [stringOfLen, update_bind, look_bind, readBytes, setLen_len]
  rw [take_holds_of_length h' hc (by simp; omega), BitVec.toNat_ofNat, Nat.mod_eq_of_lt (by omega)]
  rfl

/-- A move inside the stream stays inside it. -/
theorem State.Holds.inside {s : State} {b : List Byte} (h : s.Holds b) (hc : s.cursor ≤ s.inp.length) {n : Nat}
    (hn : n ≤ b.length) (a : BitVec 64) (k l : BitVec 32) : (s.moved n a k l).cursor ≤ (s.moved n a k l).inp.length := by
  by_cases hb : b = []
  · simp_all
  · have := h.ahead.fits hb
    simp only [moved_cursor, moved_inp]
    omega

/-- LSTR_LE, on a prefixed string (R101). -/
theorem lstrLE_holds {s : State} {b : List Byte} (h : s.Holds (lstrLEBytes b)) (hc : s.cursor ≤ s.inp.length) :
    lstrLE s = .ok (b, s.moved (lstrLEBytes b).length (BitVec.ofNat 64 b.length) s.cnt (BitVec.ofNat 32 b.length)) := by
  have hl := h.length_lt
  simp only [lstrLEBytes, List.length_append, length_leBytes] at hl
  have hr := readLE_holds (w := .w32) (v := b.length) (by simp only [Width.bytes]; omega) h.left hc
  rw [lstrLE, op_bind_ok hr,
    stringOfLen_holds (h.right (by simp [Width.bytes]) _ _ _) (h.inside hc (by simp [lstrLEBytes, Width.bytes]) _ _ _)]
  simp [lstrLEBytes, Width.bytes]

/-- LSTR_BE, on a prefixed string (R107). -/
theorem lstrBE_holds {s : State} {b : List Byte} (h : s.Holds (lstrBEBytes b)) (hc : s.cursor ≤ s.inp.length) :
    lstrBE s = .ok (b, s.moved (lstrBEBytes b).length (BitVec.ofNat 64 b.length) s.cnt (BitVec.ofNat 32 b.length)) := by
  have hl := h.length_lt
  simp only [lstrBEBytes, List.length_append, length_beBytes] at hl
  have hr := readBE_holds (w := .w32) (v := b.length) (by simp only [Width.bytes]; omega) h.left hc
  rw [lstrBE, op_bind_ok hr,
    stringOfLen_holds (h.right (by simp [Width.bytes]) _ _ _) (h.inside hc (by simp [lstrBEBytes, Width.bytes]) _ _ _)]
  simp [lstrBEBytes, Width.bytes]

/-- The counted loop, on the items' bytes one after another; `acc` and `len` say what one item leaves in ACC and LEN. -/
theorem countLoop_holds {α : Type} {item : Op α} {enc : α → List Byte} {acc : α → BitVec 64}
    {len : BitVec 32 → α → BitVec 32}
    (hitem : ∀ (x : α) (s : State), s.Holds (enc x) → s.cursor ≤ s.inp.length →
      item s = .ok (x, s.moved (enc x).length (acc x) s.cnt (len s.len x)))
    (xs : List α) (s : State) (h : s.Holds (xs.flatMap enc)) (hc : s.cursor ≤ s.inp.length) :
    countLoop item xs.length s = .ok (xs, s.moved (xs.flatMap enc).length (xs.foldl (fun _ x => acc x) s.acc)
      (s.cnt - BitVec.ofNat 32 xs.length) (xs.foldl len s.len)) := by
  induction xs generalizing s with
  | nil => simp [countLoop]
  | cons x xs ih =>
    rw [List.flatMap_cons] at h
    rw [List.length_cons, countLoop, op_bind_ok (hitem x s h.left hc)]
    simp only [decCnt, update_bind, moved_setCnt, moved_cnt]
    rw [op_bind_ok (ih _ (h.right rfl _ _ _) (h.inside hc (by simp) _ _ _))]
    simp [List.flatMap_cons, BitVec.sub_sub, BitVec.ofNat_add, BitVec.add_comm]

end Sys2Proof.Machine
end

