-- ==== Sys2Proof/Laws/Reads.lean ====
section
/-! SUPPORT. Reading backward: whatever bytes a body holds, what an operation of a parser can do. `Ends` says it once; every
invariant of the step follows from it. -/

namespace Sys2Proof.Machine

/-- `t` is `s` after the bytes `bs` of the body were consumed and `ps` was put on PAY: everything the parsers leave
alone, and where the cursor and the window stand. -/
structure Reads (s t : State) (bs : List Byte) (ps : List (List Byte)) : Prop where
  inp : t.inp = s.inp
  phase : t.phase = s.phase
  hdr : t.hdr = s.hdr
  err : t.err = s.err
  evt : t.evt = s.evt
  pay : t.pay = s.pay ++ ps
  draws : t.draws = s.draws + ps.length
  sink : s.sinkHeld = false → t.sinkHeld = false
  cursor : t.cursor = s.cursor + bs.length
  rem : s.bodyRem.toNat = t.bodyRem.toNat + bs.length
  ahead : s.ahead bs

theorem Reads.refl (s : State) : Reads s s [] [] :=
  ⟨rfl, rfl, rfl, rfl, rfl, by simp, rfl, id, rfl, rfl, List.nil_prefix⟩

theorem ahead_append {s t : State} {b c : List Byte} (hi : t.inp = s.inp) (hc : t.cursor = s.cursor + b.length)
    (hb : s.ahead b) (h : t.ahead c) : s.ahead (b ++ c) := by
  obtain ⟨r, hr⟩ := hb
  obtain ⟨q, hq⟩ := h
  refine ⟨q, ?_⟩
  have := congrArg (List.drop b.length) hr
  simp only [List.drop_append, List.drop_drop, Nat.sub_self, List.drop_length, List.nil_append, List.drop_zero] at this
  rw [hi, hc, ← this] at hq
  rw [List.append_assoc, hq, hr]

theorem Reads.trans {s t u : State} {b c : List Byte} {p q : List (List Byte)} (h : Reads s t b p)
    (k : Reads t u c q) : Reads s u (b ++ c) (p ++ q) where
  inp := k.inp.trans h.inp
  phase := k.phase.trans h.phase
  hdr := k.hdr.trans h.hdr
  err := k.err.trans h.err
  evt := k.evt.trans h.evt
  pay := by rw [k.pay, h.pay, List.append_assoc]
  draws := by rw [k.draws, h.draws, List.length_append, Nat.add_assoc]
  sink := k.sink ∘ h.sink
  cursor := by rw [k.cursor, h.cursor, List.length_append, Nat.add_assoc]
  rem := by rw [h.rem, k.rem, List.length_append]; omega
  ahead := ahead_append h.inp h.cursor h.ahead k.ahead

/-- Reading never takes the cursor past the end of the stream. -/
theorem Reads.inside {s t : State} {b : List Byte} {p : List (List Byte)} (h : Reads s t b p)
    (hc : s.cursor ≤ s.inp.length) : t.cursor ≤ t.inp.length := by
  rw [h.cursor, h.inp]
  by_cases hb : b = []
  · simpa [hb] using hc
  · exact h.ahead.fits hb

/-- What a run of an operation in a body can end in: a value with `P`, or a failure entry. `P` is told the value, the
state, the bytes consumed and the payloads put out; a failure is entered with nothing put out. -/
def Ends {α : Type} (s : State) (r : Except State (α × State))
    (P : α → State → List Byte → List (List Byte) → Prop) : Prop :=
  match r with
  | .ok (a, t) => ∃ bs ps, Reads s t bs ps ∧ P a t bs ps
  | .error e => ∃ u bs reason info, Reads s u bs [] ∧ reason ≠ Reason.none ∧ e = u.failureEntry reason info

/-- `Ends` from every state inside a body. -/
def BodyOp {α : Type} (op : Op α) (P : α → State → List Byte → List (List Byte) → Prop) : Prop :=
  ∀ s : State, s.phase = .body → Ends s (op s) P

/-- Sequencing: the first part puts nothing out, the second is told what the first consumed. -/
theorem BodyOp.bind {α β : Type} {x : Op α} {f : α → Op β} {P : α → State → List Byte → List (List Byte) → Prop}
    {Q : β → State → List Byte → List (List Byte) → Prop} (hx : BodyOp x fun a t bs ps => ps = [] ∧ P a t bs ps)
    (hf : ∀ a t bs, P a t bs [] → t.phase = .body →
      Ends t (f a t) fun b u cs ps => Q b u (bs ++ cs) ps) : BodyOp (x >>= f) Q := by
  intro s hs
  have h := hx s hs
  rw [op_bind]
  cases hxs : x s with
  | error e => simpa [hxs, Ends] using h
  | ok r =>
    obtain ⟨a, t⟩ := r
    simp only [hxs, Ends] at h
    obtain ⟨bs, _, hr, rfl, hp⟩ := h
    have k := hf a t bs hp (hr.phase.trans hs)
    simp only
    cases hfa : f a t with
    | error e =>
      simp only [hfa, Ends] at k ⊢
      obtain ⟨u, cs, r, i, hu, hne, rfl⟩ := k
      exact ⟨u, bs ++ cs, r, i, by simpa using hr.trans hu, hne, rfl⟩
    | ok r =>
      simp only [hfa, Ends] at k ⊢
      obtain ⟨cs, ps, hu, hq⟩ := k
      exact ⟨bs ++ cs, ps, by simpa using hr.trans hu, hq⟩

theorem Ends.imp {α : Type} {s : State} {r : Except State (α × State)}
    {P Q : α → State → List Byte → List (List Byte) → Prop} (h : Ends s r P)
    (hpq : ∀ a t bs ps, P a t bs ps → Q a t bs ps) : Ends s r Q := by
  cases r with
  | error e => exact h
  | ok r =>
    obtain ⟨bs, ps, hr, hp⟩ := h
    exact ⟨bs, ps, hr, hpq _ _ _ _ hp⟩

/-- Take (R70). -/
theorem take_ends (n : Nat) : BodyOp (take n) fun b _ bs ps => ps = [] ∧ bs = b ∧ b.length = n := by
  intro s hs
  rcases take_cases n s with ⟨hw, hn, h⟩ | ⟨_, _, h⟩ | ⟨_, _, h⟩
  · rw [h]
    have hl : ((s.inp.drop s.cursor).take n).length = n := by simp; omega
    refine ⟨(s.inp.drop s.cursor).take n, [], ⟨rfl, rfl, rfl, rfl, rfl, by simp, rfl, id, by rw [hl]; rfl, ?_,
      List.take_prefix _ _⟩, rfl, rfl, hl⟩
    rw [hl, advance_eq_moved, moved_bodyRem hs (hw hs)]
    have := hw hs
    omega
  · rw [h]
    exact ⟨s, [], _, _, .refl s, by simp, rfl⟩
  · rw [h]
    exact ⟨s, [], _, _, .refl s, by simp, rfl⟩

/-- An update of a register the parsers own. -/
theorem update_ends {f : State → State} {P : Unit → State → List Byte → List (List Byte) → Prop} {s : State}
    (hf : Reads s (f s) [] []) (hp : P () (f s) [] []) : Ends s (update f s) P := ⟨[], [], hf, hp⟩

theorem reads_setAcc (s : State) (v : BitVec 64) : Reads s (s.setAcc v) [] [] :=
  ⟨rfl, rfl, rfl, rfl, rfl, by simp, rfl, id, rfl, rfl, List.nil_prefix⟩

theorem reads_setLen (s : State) (v : BitVec 32) : Reads s (s.setLen v) [] [] :=
  ⟨rfl, rfl, rfl, rfl, rfl, by simp, rfl, id, rfl, rfl, List.nil_prefix⟩

theorem reads_setCnt (s : State) (v : BitVec 32) : Reads s (s.setCnt v) [] [] :=
  ⟨rfl, rfl, rfl, rfl, rfl, by simp, rfl, id, rfl, rfl, List.nil_prefix⟩

theorem reads_setBlk (s : State) (b : Body) : Reads s (s.setBlk b) [] [] :=
  ⟨rfl, rfl, rfl, rfl, rfl, by simp, rfl, id, rfl, rfl, List.nil_prefix⟩

theorem Ends.pure {α : Type} {P : α → State → List Byte → List (List Byte) → Prop} {a : α} {s : State}
    (h : P a s [] []) : Ends s ((Pure.pure a : Op α) s) P := ⟨[], [], .refl s, h⟩

/-- A register update before the rest. -/
theorem Ends.after {α : Type} {s t : State} {r : Except State (α × State)}
    {P : α → State → List Byte → List (List Byte) → Prop} (h : Reads s t [] []) (k : Ends t r P) : Ends s r P := by
  cases r with
  | error e =>
    obtain ⟨u, bs, reason, info, hu, hne, he⟩ := k
    exact ⟨u, bs, reason, info, by simpa using h.trans hu, hne, he⟩
  | ok r =>
    obtain ⟨bs, ps, hr, hp⟩ := k
    exact ⟨bs, ps, by simpa using h.trans hr, hp⟩

/-- READ_BE (R71): the bytes consumed are the value's. -/
theorem readBE_ends (w : Width) : BodyOp (readBE w) fun v t bs ps =>
    ps = [] ∧ bs = beBytes w.bytes v ∧ v < 256 ^ w.bytes ∧ t.acc = BitVec.ofNat 64 v := by
  refine BodyOp.bind (take_ends w.bytes) fun b t bs h _ => ?_
  obtain ⟨rfl, hl⟩ := h
  simp only [update_bind, op_pure]
  refine ⟨[], [], reads_setAcc t _, rfl, ?_, ?_, rfl⟩
  · rw [List.append_nil, ← hl, beBytes_beNat]
  · rw [← hl]; exact beNat_lt _

/-- READ_LE (R72): the bytes consumed are the value's. -/
theorem readLE_ends (w : Width) : BodyOp (readLE w) fun v t bs ps =>
    ps = [] ∧ bs = leBytes w.bytes v ∧ v < 256 ^ w.bytes ∧ t.acc = BitVec.ofNat 64 v := by
  refine BodyOp.bind (take_ends w.bytes) fun b t bs h _ => ?_
  obtain ⟨rfl, hl⟩ := h
  simp only [update_bind, op_pure]
  refine ⟨[], [], reads_setAcc t _, rfl, ?_, ?_, rfl⟩
  · rw [List.append_nil, ← hl, leBytes_leNat]
  · rw [← hl]; exact leNat_lt _

/-- The string after its prefix (R101, R107): LEN holds its length. -/
theorem stringOfLen_ends {v : Nat} (hv : v < 2 ^ 32) : BodyOp (stringOfLen v) fun b t bs ps =>
    ps = [] ∧ bs = b ∧ b.length = v ∧ t.len = BitVec.ofNat 32 v := by
  intro s hs
  simp only [stringOfLen, update_bind, look_bind, setLen_len, readBytes, BitVec.toNat_ofNat, Nat.mod_eq_of_lt hv]
  refine Ends.after (reads_setLen s (BitVec.ofNat 32 v)) ?_
  have h := take_ends v (s.setLen (BitVec.ofNat 32 v)) hs
  have hlen : ∀ r : Except State (List Byte × State), take v (s.setLen (BitVec.ofNat 32 v)) = r →
      ∀ b t, r = .ok (b, t) → t.len = BitVec.ofNat 32 v := by
    rintro _ hr b t rfl
    rcases take_cases v (s.setLen (BitVec.ofNat 32 v)) with ⟨_, _, h⟩ | ⟨_, _, h⟩ | ⟨_, _, h⟩ <;> rw [h] at hr
    · cases hr; rfl
    · cases hr
    · cases hr
  cases hr : take v (s.setLen (BitVec.ofNat 32 v)) with
  | error e => rw [hr] at h; exact h
  | ok r =>
    obtain ⟨b, t⟩ := r
    rw [hr] at h
    obtain ⟨bs, ps, hreads, h1, h2, h3⟩ := h
    exact ⟨bs, ps, hreads, h1, h2, h3, hlen _ hr b t rfl⟩

/-- LSTR_LE (R101): the bytes consumed are the prefixed string's. -/
theorem lstrLE_ends : BodyOp lstrLE fun b _ bs ps => ps = [] ∧ bs = lstrLEBytes b := by
  refine BodyOp.bind (readLE_ends .w32) fun v t bs h hp => ?_
  obtain ⟨rfl, hv, -⟩ := h
  refine (stringOfLen_ends hv t hp).imp ?_
  rintro b u cs ps ⟨rfl, rfl, rfl, -⟩
  exact ⟨rfl, rfl⟩

/-- LSTR_BE (R107): the bytes consumed are the prefixed string's. -/
theorem lstrBE_ends : BodyOp lstrBE fun b _ bs ps => ps = [] ∧ bs = lstrBEBytes b := by
  refine BodyOp.bind (readBE_ends .w32) fun v t bs h hp => ?_
  obtain ⟨rfl, hv, -⟩ := h
  refine (stringOfLen_ends hv t hp).imp ?_
  rintro b u cs ps ⟨rfl, rfl, rfl, -⟩
  exact ⟨rfl, rfl⟩

/-- SKIP (R74). -/
theorem skip_ends (n : Nat) : BodyOp (skip n) fun _ _ bs ps => ps = [] ∧ bs.length = n := by
  refine BodyOp.bind (take_ends n) fun b t bs h _ => ?_
  obtain ⟨rfl, hl⟩ := h
  exact Ends.pure ⟨rfl, by simpa using hl⟩

/-- The counted loop (R92, R100): as many items as asked for, their bytes one after another. -/
theorem countLoop_ends {α : Type} {item : Op α} {enc : α → List Byte}
    (hitem : BodyOp item fun a _ bs ps => ps = [] ∧ bs = enc a) (n : Nat) :
    BodyOp (countLoop item n) fun as _ bs ps => ps = [] ∧ bs = as.flatMap enc ∧ as.length = n := by
  induction n with
  | zero => exact fun s _ => Ends.pure ⟨rfl, rfl, rfl⟩
  | succ n ih =>
    refine BodyOp.bind hitem fun a t bs h hp => ?_
    subst h
    simp only [decCnt, update_bind]
    refine Ends.after (reads_setCnt t (t.cnt - 1)) ?_
    refine BodyOp.bind ih (fun as u cs h _ => ?_) (t.setCnt _) hp
    obtain ⟨rfl, rfl⟩ := h
    exact Ends.pure ⟨rfl, by simp, by simp⟩

end Sys2Proof.Machine
end

