-- ==== Sys2Proof/Laws/Parsers.lean ====
section
/-! SUPPORT. The five body parsers and the whole block: everything they can end in. A parser that returns leaves in BLK the record
of exactly the bytes it consumed. -/

namespace Sys2Proof.Machine

/-- A body parser of type code `t`, started with BLK empty, ends with the record of the bytes it consumed. -/
def ParserOf (t : BitVec 7) (parser : Op Unit) : Prop :=
  ∀ s : State, s.phase = .body → s.blk = .empty →
    Ends s (parser s) fun _ u bs ps => u.blk.Encodes ps bs ∧ u.blk.typeCode = t ∧ ps.length ≤ 1

theorem ofNat_toNat_lt {w v : Nat} (h : v < 2 ^ w) : (BitVec.ofNat w v).toNat = v := by
  rw [BitVec.toNat_ofNat, Nat.mod_eq_of_lt h]

theorem BodyOp.parserOf {t : BitVec 7} {parser : Op Unit}
    (h : BodyOp parser fun _ u bs ps => u.blk.Encodes ps bs ∧ u.blk.typeCode = t ∧ ps.length ≤ 1) :
    ParserOf t parser := fun s hp _ => h s hp

/-- The STREAMINFO parser (R90). -/
theorem parseStreamInfo_parserOf : ParserOf 0 parseStreamInfo := by
  refine BodyOp.parserOf ?_
  refine BodyOp.bind (readBE_ends .w16) fun a _ _ ⟨ha, ha', _⟩ hp => ?_
  refine BodyOp.bind (readBE_ends .w16) (fun b _ _ ⟨hb, hb', _⟩ hp => ?_) _ hp
  refine BodyOp.bind (readBE_ends .w24) (fun c _ _ ⟨hc1, hc', _⟩ hp => ?_) _ hp
  refine BodyOp.bind (readBE_ends .w24) (fun d _ _ ⟨hd, hd', _⟩ hp => ?_) _ hp
  refine BodyOp.bind (readBE_ends .w64) (fun e _ _ ⟨he, he', _⟩ hp => ?_) _ hp
  refine BodyOp.bind (take_ends _) (fun f t _ ⟨hf, hf'⟩ _ => ?_) _ hp
  refine update_ends (reads_setBlk t _) ⟨⟨hf', rfl, ?_⟩, rfl, Nat.zero_le _⟩
  subst ha hb hc1 hd he hf
  simp only [Width.bytes] at ha' hb' hc' hd' he' ⊢
  simp only [StreamInfoRec.bytes]
  rw [ofNat_toNat_lt (by omega), ofNat_toNat_lt (by omega), ofNat_toNat_lt (by omega), ofNat_toNat_lt (by omega),
    ofNat_toNat_lt (by omega)]
  simp

/-- The PADDING parser (R91): it consumes `HDR.length` bytes. -/
theorem parsePadding_parserOf : ParserOf 1 parsePadding := by
  intro s hp hb
  have hk := skip_ends s.hdr.length.toNat s hp
  simp only [parsePadding, look_bind]
  cases hs : skip s.hdr.length.toNat s with
  | error e => simpa [hs, Ends] using hk
  | ok r =>
    obtain ⟨u, t⟩ := r
    rw [hs] at hk
    obtain ⟨bs, ps, hr, rfl, -⟩ := hk
    have ht : t.blk = s.blk := by
      rcases take_cases s.hdr.length.toNat s with ⟨_, _, h⟩ | ⟨_, _, h⟩ | ⟨_, _, h⟩
      · rw [skip, op_bind_ok h] at hs
        cases hs; rfl
      · rw [skip, op_bind_error h] at hs
        cases hs
      · rw [skip, op_bind_error h] at hs
        cases hs
    refine ⟨bs, [], hr, ?_⟩
    show t.blk.Encodes [] bs ∧ t.blk.typeCode = 1 ∧ _
    rw [ht, hb]
    exact ⟨rfl, rfl, Nat.zero_le _⟩

/-- One seek point (R92). -/
theorem readPoint_ends : BodyOp readPoint fun p _ bs ps => ps = [] ∧ bs = p.bytes := by
  refine BodyOp.bind (readBE_ends .w64) fun a _ _ ⟨ha, ha', _⟩ hp => ?_
  refine BodyOp.bind (readBE_ends .w64) (fun b _ _ ⟨hb, hb', _⟩ hp => ?_) _ hp
  refine BodyOp.bind (readBE_ends .w16) (fun c _ _ ⟨hc1, hc', _⟩ _ => ?_) _ hp
  refine Ends.pure ⟨rfl, ?_⟩
  subst ha hb hc1
  simp only [Width.bytes] at ha' hb' hc' ⊢
  simp only [SeekPoint.bytes]
  rw [ofNat_toNat_lt (by omega), ofNat_toNat_lt (by omega), ofNat_toNat_lt (by omega)]
  simp

/-- The SEEKTABLE parser (R92). -/
theorem parseSeekTable_parserOf : ParserOf 3 parseSeekTable := by
  intro s hp _
  simp only [parseSeekTable, look_bind, update_bind, setCnt_cnt]
  refine Ends.after (reads_setCnt s (BitVec.ofNat 32 (s.hdr.length.toNat / Config.seekPointBytes))) ?_
  refine BodyOp.bind (countLoop_ends readPoint_ends _) (fun as t bs h _ => ?_) (s.setCnt _) hp
  obtain ⟨rfl, -⟩ := h
  exact update_ends (reads_setBlk t _) ⟨⟨rfl, by simp [SeekTableRec.bytes]⟩, rfl, Nat.zero_le _⟩

/-- The VORBISCOMMENT parser (R100). -/
theorem parseVorbisComment_parserOf : ParserOf 4 parseVorbisComment := by
  refine BodyOp.parserOf ?_
  refine BodyOp.bind lstrLE_ends fun v _ _ hv hp => ?_
  refine BodyOp.bind (readLE_ends .w32) (fun n t _ ⟨hn, hn', _⟩ hp => ?_) _ hp
  simp only [update_bind, look_bind, setCnt_cnt]
  refine Ends.after (reads_setCnt t (BitVec.ofNat 32 n)) ?_
  refine BodyOp.bind (countLoop_ends lstrLE_ends _) (fun as u bs h _ => ?_) (t.setCnt _) hp
  obtain ⟨rfl, hlen⟩ := h
  refine update_ends (reads_setBlk u _) ⟨⟨rfl, ?_⟩, rfl, Nat.zero_le _⟩
  subst hv hn
  rw [ofNat_toNat_lt (show n < 2 ^ 32 from hn')] at hlen
  simp [VorbisCommentRec.bytes, hlen, Width.bytes]

/-- CATEGORY (R106). -/
theorem checkCategory_ends (t : Nat) :
    BodyOp (checkCategory t) fun _ _ bs ps => ps = [] ∧ bs = [] ∧ t ≤ Config.picTypeMax := by
  intro s _
  unfold checkCategory
  split
  · exact ⟨s, [], _, _, .refl s, by simp, rfl⟩
  · exact Ends.pure ⟨rfl, rfl, by omega⟩

/-- The handoff and the record: the last part of the PICTURE parser, which reads nothing and cannot fail (R109). -/
theorem handOff_ends {s : State} {payload : List Byte} {rec : BitVec 32 → Ref → PictureRec}
    {P : Unit → State → List Byte → List (List Byte) → Prop}
    (h : ∀ t : State, t.blk = .picture (rec s.len (Config.paySink s.draws payload)) → P () t [] [payload]) :
    Ends s ((look State.len >>= fun n => memWritePay payload >>= fun ref =>
      update (State.setBlk (.picture (rec n ref)))) s) P := by
  simp only [look_bind]
  rw [op_bind_ok (memWritePay_apply payload s)]
  refine ⟨[], [payload], ⟨rfl, rfl, rfl, rfl, rfl, rfl, rfl, fun _ => rfl, rfl, rfl, List.nil_prefix⟩, ?_⟩
  exact h _ rfl

/-- The PICTURE parser (R105). -/
theorem parsePicture_parserOf : ParserOf 6 parsePicture := by
  refine BodyOp.parserOf ?_
  refine BodyOp.bind (readBE_ends .w32) fun ty _ _ ⟨h1, h1', _⟩ hp => ?_
  refine BodyOp.bind (checkCategory_ends ty) (fun _ _ _ ⟨h2, h2'⟩ hp => ?_) _ hp
  refine BodyOp.bind lstrBE_ends (fun mime _ _ h3 hp => ?_) _ hp
  refine BodyOp.bind lstrBE_ends (fun desc _ _ h4 hp => ?_) _ hp
  refine BodyOp.bind (skip_ends _) (fun _ _ geometry h5 hp => ?_) _ hp
  refine BodyOp.bind (readBE_ends .w32) (fun n _ _ ⟨h6, h6', _⟩ hp => ?_) _ hp
  refine BodyOp.bind (stringOfLen_ends (v := n) h6') (fun payload t _ ⟨h7, h7', h7''⟩ _ => ?_) _ hp
  refine handOff_ends (rec := fun n ref => ⟨BitVec.ofNat 32 ty, mime, desc, n, ref⟩) fun u hu => ?_
  rw [hu]
  refine ⟨⟨geometry, payload, h5, ?_, ?_, rfl, ?_⟩, rfl, Nat.le_refl _⟩
  · rw [ofNat_toNat_lt (show ty < 2 ^ 32 from h1')]; exact h2'
  · rw [h7'', ofNat_toNat_lt (show n < 2 ^ 32 from h6'), h7']
  · subst h1 h2 h3 h4 h6 h7 h7'
    simp [PictureRec.bytes, lstrBEBytes, Width.bytes, ofNat_toNat_lt (show ty < 2 ^ 32 from h1')]

/-- A parser of a type other than PICTURE puts nothing on PAY. -/
theorem Body.Encodes.nil_of_ne_picture {b : Body} {ps : List (List Byte)} {bs : List Byte} (h : b.Encodes ps bs)
    (ht : b.typeCode ≠ 6) : ps = [] := by
  cases b with
  | streamInfo r => exact h.2.1
  | padding => exact h
  | seekTable r => exact h.1
  | vorbisComment r => exact h.1
  | picture r => exact absurd rfl ht

/-- Everything a block of a supported type can end in (R81, R86): it closes, its record being that of exactly the
`length` body bytes, or it fails with at most one payload put out. -/
theorem decodeBlock_cases {t : BitVec 7} {parser : Op Unit} (h : ParserOf t parser) (isLast : Bool)
    (length : BitVec 24) (s : State) :
    (∃ v bs ps, Reads (s.setHdr ⟨isLast, t, length⟩).enterBody v bs ps ∧ bs.length = length.toNat ∧
      v.blk.Encodes ps bs ∧ v.blk.typeCode = t ∧ v.bodyRem = 0 ∧
      decodeBlock t isLast length parser s = .ok ((), ((v.emit ⟨isLast, t, length, v.blk⟩).setBlk .empty).setPhase
        (phaseAfterClose isLast))) ∨
    (∃ v bs ps reason info, Reads (s.setHdr ⟨isLast, t, length⟩).enterBody v bs ps ∧ ps.length ≤ 1 ∧
      (ps ≠ [] → reason = .format .bodyUnderread ∧ t = 6) ∧ reason ≠ .none ∧
      decodeBlock t isLast length parser s = .error (v.failureEntry reason info)) := by
  rw [decodeBlock_apply]
  have hp := h (s.setHdr ⟨isLast, t, length⟩).enterBody rfl rfl
  cases hop : parser (s.setHdr ⟨isLast, t, length⟩).enterBody with
  | error e =>
    rw [hop] at hp
    obtain ⟨u, bs, r, i, hu, hne, rfl⟩ := hp
    exact .inr ⟨u, bs, [], r, i, hu, by simp, by simp, hne, op_bind_error hop _⟩
  | ok r =>
    obtain ⟨⟨⟩, v⟩ := r
    rw [hop] at hp
    obtain ⟨bs, ps, hr, henc, hty, hlen⟩ := hp
    rw [op_bind_ok hop]
    by_cases hz : v.bodyRem = 0
    · have hrem : length.toNat = v.bodyRem.toNat + bs.length := hr.rem
      refine .inl ⟨v, bs, ps, hr, by simp [hz] at hrem; omega, henc, hty, hz, ?_⟩
      rw [close_ok hz, hr.hdr]
      rfl
    · refine .inr ⟨v, bs, ps, _, _, hr, hlen, fun hps => ⟨rfl, ?_⟩, by simp, close_underread hz⟩
      exact Classical.byContradiction fun h6 => hps (henc.nil_of_ne_picture (hty ▸ h6))

end Sys2Proof.Machine
end

