-- ==== Sys2Proof/Laws/PerInstr.lean ====
section
/-! SUPPORT. The opcode map, instruction by instruction (R54): an instruction's encoded word decodes back to it, in
the slot where the instruction may stand. -/

namespace Sys2Proof.Laws.OpcodeMap

/-- `i`, encoded as its word's four bytes and read in its own slot, is `i` again, with nothing left over. -/
def Statement (i : Instr) : Prop :=
  decode i.slot (encode i) = .ok (i, [])

/-- What every header instruction needs: its word is a header word of its type code, and the map gives it back. -/
theorem ofHeader (i : Instr) (isLast : Bool) (t : BitVec 7) (length : BitVec 24) (hs : i.slot = .header)
    (hw : encodeWord i = headerWord isLast t length) (hi : instrOfCode t isLast length = i) : Statement i := by
  have hlen : (encode i).length = 4 := length_beBytes 4 _
  have hword : wordOfBytes (encode i) = headerWord isLast t length := by rw [encode, wordOfBytes_beBytes, hw]
  rw [Statement, hs, decode, if_neg (by omega), hword, decodeHeaderWord_headerWord, hi,
    List.drop_eq_nil_of_le (by omega)]

theorem sig : Statement .sig := by unfold Statement; rfl
theorem streaminfo (isLast : Bool) (length : BitVec 24) : Statement (.streaminfo isLast length) := ofHeader _ isLast 0 length rfl rfl rfl
theorem padding (isLast : Bool) (length : BitVec 24) : Statement (.padding isLast length) := ofHeader _ isLast 1 length rfl rfl rfl
theorem application (isLast : Bool) (length : BitVec 24) : Statement (.application isLast length) := ofHeader _ isLast 2 length rfl rfl rfl
theorem seektable (isLast : Bool) (length : BitVec 24) : Statement (.seektable isLast length) := ofHeader _ isLast 3 length rfl rfl rfl
theorem vorbiscomment (isLast : Bool) (length : BitVec 24) : Statement (.vorbiscomment isLast length) := ofHeader _ isLast 4 length rfl rfl rfl
theorem cuesheet (isLast : Bool) (length : BitVec 24) : Statement (.cuesheet isLast length) := ofHeader _ isLast 5 length rfl rfl rfl
theorem picture (isLast : Bool) (length : BitVec 24) : Statement (.picture isLast length) := ofHeader _ isLast 6 length rfl rfl rfl
theorem reserved7 (isLast : Bool) (length : BitVec 24) : Statement (.reserved7 isLast length) := ofHeader _ isLast 7 length rfl rfl rfl
theorem reserved8 (isLast : Bool) (length : BitVec 24) : Statement (.reserved8 isLast length) := ofHeader _ isLast 8 length rfl rfl rfl
theorem reserved9 (isLast : Bool) (length : BitVec 24) : Statement (.reserved9 isLast length) := ofHeader _ isLast 9 length rfl rfl rfl
theorem reserved10 (isLast : Bool) (length : BitVec 24) : Statement (.reserved10 isLast length) := ofHeader _ isLast 10 length rfl rfl rfl
theorem reserved11 (isLast : Bool) (length : BitVec 24) : Statement (.reserved11 isLast length) := ofHeader _ isLast 11 length rfl rfl rfl
theorem reserved12 (isLast : Bool) (length : BitVec 24) : Statement (.reserved12 isLast length) := ofHeader _ isLast 12 length rfl rfl rfl
theorem reserved13 (isLast : Bool) (length : BitVec 24) : Statement (.reserved13 isLast length) := ofHeader _ isLast 13 length rfl rfl rfl
theorem reserved14 (isLast : Bool) (length : BitVec 24) : Statement (.reserved14 isLast length) := ofHeader _ isLast 14 length rfl rfl rfl
theorem reserved15 (isLast : Bool) (length : BitVec 24) : Statement (.reserved15 isLast length) := ofHeader _ isLast 15 length rfl rfl rfl
theorem reserved16 (isLast : Bool) (length : BitVec 24) : Statement (.reserved16 isLast length) := ofHeader _ isLast 16 length rfl rfl rfl
theorem reserved17 (isLast : Bool) (length : BitVec 24) : Statement (.reserved17 isLast length) := ofHeader _ isLast 17 length rfl rfl rfl
theorem reserved18 (isLast : Bool) (length : BitVec 24) : Statement (.reserved18 isLast length) := ofHeader _ isLast 18 length rfl rfl rfl
theorem reserved19 (isLast : Bool) (length : BitVec 24) : Statement (.reserved19 isLast length) := ofHeader _ isLast 19 length rfl rfl rfl
theorem reserved20 (isLast : Bool) (length : BitVec 24) : Statement (.reserved20 isLast length) := ofHeader _ isLast 20 length rfl rfl rfl
theorem reserved21 (isLast : Bool) (length : BitVec 24) : Statement (.reserved21 isLast length) := ofHeader _ isLast 21 length rfl rfl rfl
theorem reserved22 (isLast : Bool) (length : BitVec 24) : Statement (.reserved22 isLast length) := ofHeader _ isLast 22 length rfl rfl rfl
theorem reserved23 (isLast : Bool) (length : BitVec 24) : Statement (.reserved23 isLast length) := ofHeader _ isLast 23 length rfl rfl rfl
theorem reserved24 (isLast : Bool) (length : BitVec 24) : Statement (.reserved24 isLast length) := ofHeader _ isLast 24 length rfl rfl rfl
theorem reserved25 (isLast : Bool) (length : BitVec 24) : Statement (.reserved25 isLast length) := ofHeader _ isLast 25 length rfl rfl rfl
theorem reserved26 (isLast : Bool) (length : BitVec 24) : Statement (.reserved26 isLast length) := ofHeader _ isLast 26 length rfl rfl rfl
theorem reserved27 (isLast : Bool) (length : BitVec 24) : Statement (.reserved27 isLast length) := ofHeader _ isLast 27 length rfl rfl rfl
theorem reserved28 (isLast : Bool) (length : BitVec 24) : Statement (.reserved28 isLast length) := ofHeader _ isLast 28 length rfl rfl rfl
theorem reserved29 (isLast : Bool) (length : BitVec 24) : Statement (.reserved29 isLast length) := ofHeader _ isLast 29 length rfl rfl rfl
theorem reserved30 (isLast : Bool) (length : BitVec 24) : Statement (.reserved30 isLast length) := ofHeader _ isLast 30 length rfl rfl rfl
theorem reserved31 (isLast : Bool) (length : BitVec 24) : Statement (.reserved31 isLast length) := ofHeader _ isLast 31 length rfl rfl rfl
theorem reserved32 (isLast : Bool) (length : BitVec 24) : Statement (.reserved32 isLast length) := ofHeader _ isLast 32 length rfl rfl rfl
theorem reserved33 (isLast : Bool) (length : BitVec 24) : Statement (.reserved33 isLast length) := ofHeader _ isLast 33 length rfl rfl rfl
theorem reserved34 (isLast : Bool) (length : BitVec 24) : Statement (.reserved34 isLast length) := ofHeader _ isLast 34 length rfl rfl rfl
theorem reserved35 (isLast : Bool) (length : BitVec 24) : Statement (.reserved35 isLast length) := ofHeader _ isLast 35 length rfl rfl rfl
theorem reserved36 (isLast : Bool) (length : BitVec 24) : Statement (.reserved36 isLast length) := ofHeader _ isLast 36 length rfl rfl rfl
theorem reserved37 (isLast : Bool) (length : BitVec 24) : Statement (.reserved37 isLast length) := ofHeader _ isLast 37 length rfl rfl rfl
theorem reserved38 (isLast : Bool) (length : BitVec 24) : Statement (.reserved38 isLast length) := ofHeader _ isLast 38 length rfl rfl rfl
theorem reserved39 (isLast : Bool) (length : BitVec 24) : Statement (.reserved39 isLast length) := ofHeader _ isLast 39 length rfl rfl rfl
theorem reserved40 (isLast : Bool) (length : BitVec 24) : Statement (.reserved40 isLast length) := ofHeader _ isLast 40 length rfl rfl rfl
theorem reserved41 (isLast : Bool) (length : BitVec 24) : Statement (.reserved41 isLast length) := ofHeader _ isLast 41 length rfl rfl rfl
theorem reserved42 (isLast : Bool) (length : BitVec 24) : Statement (.reserved42 isLast length) := ofHeader _ isLast 42 length rfl rfl rfl
theorem reserved43 (isLast : Bool) (length : BitVec 24) : Statement (.reserved43 isLast length) := ofHeader _ isLast 43 length rfl rfl rfl
theorem reserved44 (isLast : Bool) (length : BitVec 24) : Statement (.reserved44 isLast length) := ofHeader _ isLast 44 length rfl rfl rfl
theorem reserved45 (isLast : Bool) (length : BitVec 24) : Statement (.reserved45 isLast length) := ofHeader _ isLast 45 length rfl rfl rfl
theorem reserved46 (isLast : Bool) (length : BitVec 24) : Statement (.reserved46 isLast length) := ofHeader _ isLast 46 length rfl rfl rfl
theorem reserved47 (isLast : Bool) (length : BitVec 24) : Statement (.reserved47 isLast length) := ofHeader _ isLast 47 length rfl rfl rfl
theorem reserved48 (isLast : Bool) (length : BitVec 24) : Statement (.reserved48 isLast length) := ofHeader _ isLast 48 length rfl rfl rfl
theorem reserved49 (isLast : Bool) (length : BitVec 24) : Statement (.reserved49 isLast length) := ofHeader _ isLast 49 length rfl rfl rfl
theorem reserved50 (isLast : Bool) (length : BitVec 24) : Statement (.reserved50 isLast length) := ofHeader _ isLast 50 length rfl rfl rfl
theorem reserved51 (isLast : Bool) (length : BitVec 24) : Statement (.reserved51 isLast length) := ofHeader _ isLast 51 length rfl rfl rfl
theorem reserved52 (isLast : Bool) (length : BitVec 24) : Statement (.reserved52 isLast length) := ofHeader _ isLast 52 length rfl rfl rfl
theorem reserved53 (isLast : Bool) (length : BitVec 24) : Statement (.reserved53 isLast length) := ofHeader _ isLast 53 length rfl rfl rfl
theorem reserved54 (isLast : Bool) (length : BitVec 24) : Statement (.reserved54 isLast length) := ofHeader _ isLast 54 length rfl rfl rfl
theorem reserved55 (isLast : Bool) (length : BitVec 24) : Statement (.reserved55 isLast length) := ofHeader _ isLast 55 length rfl rfl rfl
theorem reserved56 (isLast : Bool) (length : BitVec 24) : Statement (.reserved56 isLast length) := ofHeader _ isLast 56 length rfl rfl rfl
theorem reserved57 (isLast : Bool) (length : BitVec 24) : Statement (.reserved57 isLast length) := ofHeader _ isLast 57 length rfl rfl rfl
theorem reserved58 (isLast : Bool) (length : BitVec 24) : Statement (.reserved58 isLast length) := ofHeader _ isLast 58 length rfl rfl rfl
theorem reserved59 (isLast : Bool) (length : BitVec 24) : Statement (.reserved59 isLast length) := ofHeader _ isLast 59 length rfl rfl rfl
theorem reserved60 (isLast : Bool) (length : BitVec 24) : Statement (.reserved60 isLast length) := ofHeader _ isLast 60 length rfl rfl rfl
theorem reserved61 (isLast : Bool) (length : BitVec 24) : Statement (.reserved61 isLast length) := ofHeader _ isLast 61 length rfl rfl rfl
theorem reserved62 (isLast : Bool) (length : BitVec 24) : Statement (.reserved62 isLast length) := ofHeader _ isLast 62 length rfl rfl rfl
theorem reserved63 (isLast : Bool) (length : BitVec 24) : Statement (.reserved63 isLast length) := ofHeader _ isLast 63 length rfl rfl rfl
theorem reserved64 (isLast : Bool) (length : BitVec 24) : Statement (.reserved64 isLast length) := ofHeader _ isLast 64 length rfl rfl rfl
theorem reserved65 (isLast : Bool) (length : BitVec 24) : Statement (.reserved65 isLast length) := ofHeader _ isLast 65 length rfl rfl rfl
theorem reserved66 (isLast : Bool) (length : BitVec 24) : Statement (.reserved66 isLast length) := ofHeader _ isLast 66 length rfl rfl rfl
theorem reserved67 (isLast : Bool) (length : BitVec 24) : Statement (.reserved67 isLast length) := ofHeader _ isLast 67 length rfl rfl rfl
theorem reserved68 (isLast : Bool) (length : BitVec 24) : Statement (.reserved68 isLast length) := ofHeader _ isLast 68 length rfl rfl rfl
theorem reserved69 (isLast : Bool) (length : BitVec 24) : Statement (.reserved69 isLast length) := ofHeader _ isLast 69 length rfl rfl rfl
theorem reserved70 (isLast : Bool) (length : BitVec 24) : Statement (.reserved70 isLast length) := ofHeader _ isLast 70 length rfl rfl rfl
theorem reserved71 (isLast : Bool) (length : BitVec 24) : Statement (.reserved71 isLast length) := ofHeader _ isLast 71 length rfl rfl rfl
theorem reserved72 (isLast : Bool) (length : BitVec 24) : Statement (.reserved72 isLast length) := ofHeader _ isLast 72 length rfl rfl rfl
theorem reserved73 (isLast : Bool) (length : BitVec 24) : Statement (.reserved73 isLast length) := ofHeader _ isLast 73 length rfl rfl rfl
theorem reserved74 (isLast : Bool) (length : BitVec 24) : Statement (.reserved74 isLast length) := ofHeader _ isLast 74 length rfl rfl rfl
theorem reserved75 (isLast : Bool) (length : BitVec 24) : Statement (.reserved75 isLast length) := ofHeader _ isLast 75 length rfl rfl rfl
theorem reserved76 (isLast : Bool) (length : BitVec 24) : Statement (.reserved76 isLast length) := ofHeader _ isLast 76 length rfl rfl rfl
theorem reserved77 (isLast : Bool) (length : BitVec 24) : Statement (.reserved77 isLast length) := ofHeader _ isLast 77 length rfl rfl rfl
theorem reserved78 (isLast : Bool) (length : BitVec 24) : Statement (.reserved78 isLast length) := ofHeader _ isLast 78 length rfl rfl rfl
theorem reserved79 (isLast : Bool) (length : BitVec 24) : Statement (.reserved79 isLast length) := ofHeader _ isLast 79 length rfl rfl rfl
theorem reserved80 (isLast : Bool) (length : BitVec 24) : Statement (.reserved80 isLast length) := ofHeader _ isLast 80 length rfl rfl rfl
theorem reserved81 (isLast : Bool) (length : BitVec 24) : Statement (.reserved81 isLast length) := ofHeader _ isLast 81 length rfl rfl rfl
theorem reserved82 (isLast : Bool) (length : BitVec 24) : Statement (.reserved82 isLast length) := ofHeader _ isLast 82 length rfl rfl rfl
theorem reserved83 (isLast : Bool) (length : BitVec 24) : Statement (.reserved83 isLast length) := ofHeader _ isLast 83 length rfl rfl rfl
theorem reserved84 (isLast : Bool) (length : BitVec 24) : Statement (.reserved84 isLast length) := ofHeader _ isLast 84 length rfl rfl rfl
theorem reserved85 (isLast : Bool) (length : BitVec 24) : Statement (.reserved85 isLast length) := ofHeader _ isLast 85 length rfl rfl rfl
theorem reserved86 (isLast : Bool) (length : BitVec 24) : Statement (.reserved86 isLast length) := ofHeader _ isLast 86 length rfl rfl rfl
theorem reserved87 (isLast : Bool) (length : BitVec 24) : Statement (.reserved87 isLast length) := ofHeader _ isLast 87 length rfl rfl rfl
theorem reserved88 (isLast : Bool) (length : BitVec 24) : Statement (.reserved88 isLast length) := ofHeader _ isLast 88 length rfl rfl rfl
theorem reserved89 (isLast : Bool) (length : BitVec 24) : Statement (.reserved89 isLast length) := ofHeader _ isLast 89 length rfl rfl rfl
theorem reserved90 (isLast : Bool) (length : BitVec 24) : Statement (.reserved90 isLast length) := ofHeader _ isLast 90 length rfl rfl rfl
theorem reserved91 (isLast : Bool) (length : BitVec 24) : Statement (.reserved91 isLast length) := ofHeader _ isLast 91 length rfl rfl rfl
theorem reserved92 (isLast : Bool) (length : BitVec 24) : Statement (.reserved92 isLast length) := ofHeader _ isLast 92 length rfl rfl rfl
theorem reserved93 (isLast : Bool) (length : BitVec 24) : Statement (.reserved93 isLast length) := ofHeader _ isLast 93 length rfl rfl rfl
theorem reserved94 (isLast : Bool) (length : BitVec 24) : Statement (.reserved94 isLast length) := ofHeader _ isLast 94 length rfl rfl rfl
theorem reserved95 (isLast : Bool) (length : BitVec 24) : Statement (.reserved95 isLast length) := ofHeader _ isLast 95 length rfl rfl rfl
theorem reserved96 (isLast : Bool) (length : BitVec 24) : Statement (.reserved96 isLast length) := ofHeader _ isLast 96 length rfl rfl rfl
theorem reserved97 (isLast : Bool) (length : BitVec 24) : Statement (.reserved97 isLast length) := ofHeader _ isLast 97 length rfl rfl rfl
theorem reserved98 (isLast : Bool) (length : BitVec 24) : Statement (.reserved98 isLast length) := ofHeader _ isLast 98 length rfl rfl rfl
theorem reserved99 (isLast : Bool) (length : BitVec 24) : Statement (.reserved99 isLast length) := ofHeader _ isLast 99 length rfl rfl rfl
theorem reserved100 (isLast : Bool) (length : BitVec 24) : Statement (.reserved100 isLast length) := ofHeader _ isLast 100 length rfl rfl rfl
theorem reserved101 (isLast : Bool) (length : BitVec 24) : Statement (.reserved101 isLast length) := ofHeader _ isLast 101 length rfl rfl rfl
theorem reserved102 (isLast : Bool) (length : BitVec 24) : Statement (.reserved102 isLast length) := ofHeader _ isLast 102 length rfl rfl rfl
theorem reserved103 (isLast : Bool) (length : BitVec 24) : Statement (.reserved103 isLast length) := ofHeader _ isLast 103 length rfl rfl rfl
theorem reserved104 (isLast : Bool) (length : BitVec 24) : Statement (.reserved104 isLast length) := ofHeader _ isLast 104 length rfl rfl rfl
theorem reserved105 (isLast : Bool) (length : BitVec 24) : Statement (.reserved105 isLast length) := ofHeader _ isLast 105 length rfl rfl rfl
theorem reserved106 (isLast : Bool) (length : BitVec 24) : Statement (.reserved106 isLast length) := ofHeader _ isLast 106 length rfl rfl rfl
theorem reserved107 (isLast : Bool) (length : BitVec 24) : Statement (.reserved107 isLast length) := ofHeader _ isLast 107 length rfl rfl rfl
theorem reserved108 (isLast : Bool) (length : BitVec 24) : Statement (.reserved108 isLast length) := ofHeader _ isLast 108 length rfl rfl rfl
theorem reserved109 (isLast : Bool) (length : BitVec 24) : Statement (.reserved109 isLast length) := ofHeader _ isLast 109 length rfl rfl rfl
theorem reserved110 (isLast : Bool) (length : BitVec 24) : Statement (.reserved110 isLast length) := ofHeader _ isLast 110 length rfl rfl rfl
theorem reserved111 (isLast : Bool) (length : BitVec 24) : Statement (.reserved111 isLast length) := ofHeader _ isLast 111 length rfl rfl rfl
theorem reserved112 (isLast : Bool) (length : BitVec 24) : Statement (.reserved112 isLast length) := ofHeader _ isLast 112 length rfl rfl rfl
theorem reserved113 (isLast : Bool) (length : BitVec 24) : Statement (.reserved113 isLast length) := ofHeader _ isLast 113 length rfl rfl rfl
theorem reserved114 (isLast : Bool) (length : BitVec 24) : Statement (.reserved114 isLast length) := ofHeader _ isLast 114 length rfl rfl rfl
theorem reserved115 (isLast : Bool) (length : BitVec 24) : Statement (.reserved115 isLast length) := ofHeader _ isLast 115 length rfl rfl rfl
theorem reserved116 (isLast : Bool) (length : BitVec 24) : Statement (.reserved116 isLast length) := ofHeader _ isLast 116 length rfl rfl rfl
theorem reserved117 (isLast : Bool) (length : BitVec 24) : Statement (.reserved117 isLast length) := ofHeader _ isLast 117 length rfl rfl rfl
theorem reserved118 (isLast : Bool) (length : BitVec 24) : Statement (.reserved118 isLast length) := ofHeader _ isLast 118 length rfl rfl rfl
theorem reserved119 (isLast : Bool) (length : BitVec 24) : Statement (.reserved119 isLast length) := ofHeader _ isLast 119 length rfl rfl rfl
theorem reserved120 (isLast : Bool) (length : BitVec 24) : Statement (.reserved120 isLast length) := ofHeader _ isLast 120 length rfl rfl rfl
theorem reserved121 (isLast : Bool) (length : BitVec 24) : Statement (.reserved121 isLast length) := ofHeader _ isLast 121 length rfl rfl rfl
theorem reserved122 (isLast : Bool) (length : BitVec 24) : Statement (.reserved122 isLast length) := ofHeader _ isLast 122 length rfl rfl rfl
theorem reserved123 (isLast : Bool) (length : BitVec 24) : Statement (.reserved123 isLast length) := ofHeader _ isLast 123 length rfl rfl rfl
theorem reserved124 (isLast : Bool) (length : BitVec 24) : Statement (.reserved124 isLast length) := ofHeader _ isLast 124 length rfl rfl rfl
theorem reserved125 (isLast : Bool) (length : BitVec 24) : Statement (.reserved125 isLast length) := ofHeader _ isLast 125 length rfl rfl rfl
theorem reserved126 (isLast : Bool) (length : BitVec 24) : Statement (.reserved126 isLast length) := ofHeader _ isLast 126 length rfl rfl rfl
theorem invalid (isLast : Bool) (length : BitVec 24) : Statement (.invalid isLast length) := ofHeader _ isLast 127 length rfl rfl rfl

end Sys2Proof.Laws.OpcodeMap
end

