-- ==== Sys2Proof/Laws/Records.lean ====
section
/-! SUPPORT. What the bytes of a body say about its record: the lengths add up (R144), and a picture's record reports its payload. -/

namespace Sys2Proof.Machine

@[simp] theorem length_lstrLEBytes (b : List Byte) : (lstrLEBytes b).length = 4 + b.length := by simp [lstrLEBytes]

@[simp] theorem length_lstrBEBytes (b : List Byte) : (lstrBEBytes b).length = 4 + b.length := by simp [lstrBEBytes]

@[simp] theorem length_seekPoint_bytes (p : SeekPoint) : p.bytes.length = 18 := by simp [SeekPoint.bytes]

@[simp] theorem length_seekTable_bytes (r : SeekTableRec) : r.bytes.length = 18 * r.points.length := by
  simp [SeekTableRec.bytes, List.length_flatMap, Nat.mul_comm]

theorem length_streamInfo_bytes {r : StreamInfoRec} (h : r.checksum.length = 16) : r.bytes.length = 34 := by
  simp [StreamInfoRec.bytes, h]

@[simp] theorem length_vorbisComment_bytes (r : VorbisCommentRec) :
    r.bytes.length = 8 + r.vendor.length + (r.comments.map fun c => 4 + c.length).sum := by
  simp [VorbisCommentRec.bytes, List.length_flatMap]
  omega

theorem length_picture_bytes (r : PictureRec) {geometry : List Byte} (payload : List Byte) (h : geometry.length = 16) :
    (r.bytes geometry payload).length = 32 + r.mime.length + r.description.length + payload.length := by
  simp [PictureRec.bytes, h]
  omega

/-- A block whose body bytes are its record's, and as many as its header says, is framed. -/
theorem Body.Encodes.framed {b : Block} {ps : List (List Byte)} {bs : List Byte} (h : b.body.Encodes ps bs)
    (hl : bs.length = b.length.toNat) (ht : b.body.typeCode = b.blockType) : b.Framed := by
  refine ⟨ht.symm, ?_⟩
  obtain ⟨isLast, t, n, body⟩ := b
  cases body with
  | streamInfo r =>
    obtain ⟨h1, -, rfl⟩ := h
    exact ⟨hl ▸ length_streamInfo_bytes h1, h1⟩
  | padding => trivial
  | seekTable r =>
    obtain ⟨-, rfl⟩ := h
    exact hl ▸ length_seekTable_bytes r
  | vorbisComment r =>
    obtain ⟨-, rfl⟩ := h
    exact hl ▸ length_vorbisComment_bytes r
  | picture r =>
    obtain ⟨g, p, h1, h2, h3, -, rfl⟩ := h
    exact ⟨by rw [← hl, length_picture_bytes r p h1, h3], h2⟩

/-- The payload lengths a record reports are those of the payloads its bytes put on PAY. -/
theorem Body.Encodes.payloadLengths {b : Block} {ps : List (List Byte)} {bs : List Byte} (h : b.body.Encodes ps bs) :
    [b].filterMap Block.payloadLength = ps.map List.length := by
  obtain ⟨isLast, t, n, body⟩ := b
  cases body with
  | streamInfo r => simp [Block.payloadLength, h.2.1]
  | padding => simp [Block.payloadLength, show ps = [] from h]
  | seekTable r => simp [Block.payloadLength, h.1]
  | vorbisComment r => simp [Block.payloadLength, h.1]
  | picture r =>
    obtain ⟨g, p, -, -, h3, rfl, -⟩ := h
    simp [Block.payloadLength, h3]

end Sys2Proof.Machine
end

