-- ==== Sys2Proof/Laws/Step.lean ====
section
/-! SUPPORT. What an instruction and a step can do, once for all instructions: every invariant is a case analysis over
`exec_header_cases`, `exec_sig_cases` and `step_cases`. -/

namespace Sys2Proof.Machine

/-- `t` is `s` after a failure entry inside an operation that had put `ps` on PAY. -/
structure FailsWith (s t : State) (ps : List (List Byte)) (reason : Reason) (info : BitVec 32) : Prop where
  inp : t.inp = s.inp
  phase : t.phase = .failed
  err : t.err = ⟨reason, info⟩
  blk : t.blk = .empty
  evt : t.evt = s.evt
  pay : t.pay = s.pay ++ ps
  sink : s.sinkHeld = false → t.sinkHeld = false
  named : reason ≠ .none

theorem FailsWith.ofReads {s v : State} {bs : List Byte} {ps : List (List Byte)} (h : Reads s v bs ps) {r : Reason}
    (hr : r ≠ .none) (i : BitVec 32) : FailsWith s (v.failureEntry r i) ps r i :=
  ⟨h.inp, rfl, rfl, rfl, h.evt, h.pay, h.sink, hr⟩

/-- `t` is `s` after a block closed: header triple `h`, body bytes `bs` at the cursor, record `body`, payloads `ps`. -/
structure Closes (s t : State) (h : Hdr) (bs : List Byte) (body : Body) (ps : List (List Byte)) : Prop where
  inp : t.inp = s.inp
  hdr : t.hdr = h
  phase : t.phase = phaseAfterClose h.isLast
  err : t.err = s.err
  blk : t.blk = .empty
  evt : t.evt = s.evt ++ [⟨h.isLast, h.blockType, h.length, body⟩]
  pay : t.pay = s.pay ++ ps
  draws : t.draws = s.draws + ps.length
  sink : s.sinkHeld = false → t.sinkHeld = false
  cursor : t.cursor = s.cursor + bs.length
  rem : t.bodyRem = 0
  ahead : s.ahead bs
  length : bs.length = h.length.toNat
  encodes : body.Encodes ps bs
  typeCode : body.typeCode = h.blockType

/-- The header triple in an instruction's word. -/
def instrHdr (i : Instr) : Hdr := ⟨hdrIsLast (encodeWord i), hdrBlockType (encodeWord i), hdrLength (encodeWord i)⟩

theorem instrHdr_eq {i : Instr} {isLast : Bool} {t : BitVec 7} {length : BitVec 24}
    (h : encodeWord i = headerWord isLast t length) : instrHdr i = ⟨isLast, t, length⟩ := by
  simp [instrHdr, h]

/-- A block instruction of word `w` closes or fails. -/
def BlockEnds (s : State) (h : Hdr) (o : Host.Outcome State Fault Refusal) : Prop :=
  ∃ t, o = .next t ∧
    ((∃ bs body ps, Closes s t h bs body ps) ∨
     (∃ ps reason info, FailsWith s t ps reason info ∧ ps.length ≤ 1 ∧
       (ps ≠ [] → reason = .format .bodyUnderread ∧ h.blockType = 6)))

theorem BlockEnds.of_word {s : State} {isLast : Bool} {t : BitVec 7} {length : BitVec 24}
    {o : Host.Outcome State Fault Refusal} {i : Instr} (k : BlockEnds s ⟨isLast, t, length⟩ o)
    (h : encodeWord i = headerWord isLast t length) : BlockEnds s (instrHdr i) o := instrHdr_eq h ▸ k

/-- A block of a supported type closes or fails (R81, R86). -/
theorem decodeBlock_ends {t : BitVec 7} {parser : Op Unit} (h : ParserOf t parser) (isLast : Bool)
    (length : BitVec 24) {s : State} (hp : s.phase = .header) :
    BlockEnds s ⟨isLast, t, length⟩ (runIn .header (decodeBlock t isLast length parser) s) := by
  rcases decodeBlock_cases h isLast length s with ⟨v, bs, ps, hr, hl, henc, hty, hz, ho⟩ | ⟨v, bs, ps, r, i, hr, hl, hu, hne, ho⟩
  · exact ⟨_, runIn_ok hp ho, .inl ⟨bs, v.blk, ps, ⟨hr.inp, hr.hdr, rfl, hr.err, rfl, by simp [hr.evt], hr.pay, hr.draws,
      hr.sink, hr.cursor, hz, hr.ahead, hl, henc, hty⟩⟩⟩
  · refine ⟨_, runIn_error hp ho, .inr ⟨ps, r, i, ⟨hr.inp, rfl, rfl, rfl, hr.evt, hr.pay, hr.sink, hne⟩, hl, hu⟩⟩

/-- A block of a type without a parser fails (R81). -/
theorem rejectBlock_ends (c : UnsupportedCause) (t : BitVec 7) (isLast : Bool) (length : BitVec 24) {s : State}
    (hp : s.phase = .header) :
    BlockEnds s ⟨isLast, t, length⟩ (runIn .header (rejectBlock c t isLast length) s) :=
  ⟨_, runIn_error hp (rejectBlock_apply c t isLast length s), .inr ⟨[], _, _,
    ⟨rfl, rfl, rfl, rfl, rfl, by simp, id, by simp⟩, by simp, by simp⟩⟩

/-- Everything a block instruction can do in phase HEADER. -/
theorem exec_header_cases (i : Instr) (hi : i.slot = .header) {s : State} (hp : s.phase = .header) :
    BlockEnds s (instrHdr i) (exec i s) := by
  cases i with
  | sig => cases hi
  | streaminfo l n => exact (decodeBlock_ends parseStreamInfo_parserOf l n hp).of_word rfl
  | padding l n => exact (decodeBlock_ends parsePadding_parserOf l n hp).of_word rfl
  | seektable l n => exact (decodeBlock_ends parseSeekTable_parserOf l n hp).of_word rfl
  | vorbiscomment l n => exact (decodeBlock_ends parseVorbisComment_parserOf l n hp).of_word rfl
  | picture l n => exact (decodeBlock_ends parsePicture_parserOf l n hp).of_word rfl
  | _ l n => exact (rejectBlock_ends _ _ l n hp).of_word rfl

/-- Everything SIG can do in phase SIG (R113). -/
theorem exec_sig_cases {s : State} (hp : s.phase = .sig) :
    (s.ahead Config.signature ∧ exec .sig s = .next ((s.advance 4).setPhase .header)) ∨
    ∃ t reason info, exec .sig s = .next t ∧ FailsWith s t [] reason info := by
  have hb : s.phase ≠ .body := by simp [hp]
  show (_ ∧ runIn .sig sigCheck s = _) ∨ ∃ t r i, runIn .sig sigCheck s = _ ∧ _
  rcases take_cases 4 s with ⟨_, _, h⟩ | ⟨hb', _, _⟩ | ⟨_, _, h⟩
  · by_cases hsig : (s.inp.drop s.cursor).take 4 = Config.signature
    · refine .inl ⟨hsig ▸ List.take_prefix 4 _, runIn_ok hp ?_⟩
      rw [sigCheck, readBytes, op_bind_ok h, if_pos hsig, update_apply]
    · have ho : sigCheck s = .error ((s.advance 4).failureEntry (.format .badSignature)
          (BitVec.ofNat 32 (beNat ((s.inp.drop s.cursor).take 4)))) := by
        rw [sigCheck, readBytes, op_bind_ok h, if_neg hsig, raise_apply]
      exact .inr ⟨_, _, _, runIn_error hp ho, ⟨rfl, rfl, rfl, rfl, rfl, by simp, id, by simp⟩⟩
  · exact absurd hb' hb
  · exact .inr ⟨_, _, _, runIn_error hp (op_bind_error h _), ⟨rfl, rfl, rfl, rfl, rfl, by simp, id, by simp⟩⟩

/-- The header read of a step (R80): the word at the cursor, or the end of the stream. -/
theorem fetchHeader_cases {s : State} (hp : s.phase = .header) :
    (s.cursor + 4 ≤ s.inp.length ∧ fetchHeader s = .ok (wordOfBytes (s.inp.drop s.cursor),
      { s with cursor := s.cursor + 4, acc := BitVec.ofNat 64 (wordOfBytes (s.inp.drop s.cursor)).toNat })) ∨
    (s.inp.length < s.cursor + 4 ∧
      fetchHeader s = .error (s.failureEntry (.truncated .inHeader) 0)) := by
  rcases take_cases 4 s with ⟨_, hn, h⟩ | ⟨hb, _, _⟩ | ⟨_, hn, h⟩
  · refine .inl ⟨hn, ?_⟩
    have hlt := beNat_lt ((s.inp.drop s.cursor).take 4)
    have hlen : ((s.inp.drop s.cursor).take 4).length ≤ 4 := by simp
    have hw : (wordOfBytes (s.inp.drop s.cursor)).toNat = beNat ((s.inp.drop s.cursor).take 4) := by
      rw [wordOfBytes, BitVec.toNat_ofNat, Nat.mod_eq_of_lt]
      exact Nat.lt_of_lt_of_le hlt (Nat.pow_le_pow_right (by decide) hlen)
    have h' : readBE .w32 s = .ok (beNat ((s.inp.drop s.cursor).take 4),
        (s.advance 4).setAcc (BitVec.ofNat 64 (beNat ((s.inp.drop s.cursor).take 4)))) := op_bind_ok h _
    rw [fetchHeader, op_bind_ok h', hw]
    simp only [op_pure, wordOfBytes, State.advance, State.setAcc, hp]
    rfl
  · simp [hp] at hb
  · refine .inr ⟨hn, ?_⟩
    have h' : readBE .w32 s = .error _ := op_bind_error h _
    rw [fetchHeader, op_bind_error h', hp]
    rfl

/-- A stream the step accepts. -/
theorem lt_of_wf {m : Memory} (h : m.wf = true) : m.length < 2 ^ 64 := of_decide_eq_true h

theorem wf_of_lt {m : Memory} (h : m.length < 2 ^ 64) : m.wf = true := decide_eq_true h

/-- The state after the header word was read (R80). -/
def fetched (s : State) : State :=
  { s with cursor := s.cursor + 4, acc := BitVec.ofNat 64 (wordOfBytes (s.inp.drop s.cursor)).toNat }

/-- The instruction the word at the cursor stands for. -/
def nextInstr (s : State) : Instr := decodeHeaderWord (wordOfBytes (s.inp.drop s.cursor))

/-- Everything a step that answers a next state has done (R114). -/
theorem step_cases {s t : State} (h : step s = .next t) :
    s.inp.length < 2 ^ 64 ∧
    ((s.phase = .sig ∧ s.ahead Config.signature ∧ t = (s.advance 4).setPhase .header) ∨
     (s.phase = .sig ∧ ∃ reason info, FailsWith s t [] reason info) ∨
     (s.phase = .header ∧ s.inp.length < s.cursor + 4 ∧ FailsWith s t [] (.truncated .inHeader) 0) ∨
     (s.phase = .header ∧ s.cursor + 4 ≤ s.inp.length ∧ exec (nextInstr s) (fetched s) = .next t ∧
       BlockEnds (fetched s) (instrHdr (nextInstr s)) (.next t))) := by
  unfold step at h
  split at h
  · cases h
  · rename_i hwf
    refine ⟨lt_of_wf (by simpa using hwf), ?_⟩
    cases hp : s.phase with
    | sig =>
      rw [hp] at h
      rcases exec_sig_cases hp with ⟨ha, he⟩ | ⟨u, r, i, he, hf⟩
      · exact .inl ⟨rfl, ha, by simpa [he] using h.symm⟩
      · simp only [he, Host.Outcome.next.injEq] at h
        exact .inr (.inl ⟨rfl, r, i, h ▸ hf⟩)
    | header =>
      rw [hp] at h
      rcases fetchHeader_cases hp with ⟨hn, he⟩ | ⟨hn, he⟩
      · simp only [he] at h
        have hb := exec_header_cases (nextInstr s) (slot_decodeHeaderWord _) (s := fetched s) hp
        refine .inr (.inr (.inr ⟨rfl, hn, h, ?_⟩))
        have h' : exec (nextInstr s) (fetched s) = .next t := h
        rwa [h'] at hb
      · simp only [he, Host.Outcome.next.injEq] at h
        subst h
        exact .inr (.inr (.inl ⟨rfl, hn, ⟨rfl, rfl, rfl, rfl, rfl, by simp, id, by simp⟩⟩))
    | body => rw [hp] at h; cases h
    | done => rw [hp] at h; cases h
    | failed => rw [hp] at h; cases h

end Sys2Proof.Machine
end

