-- ==== Sys2Proof/Tests/Slice0.lean ====
section
/-! SUPPORT. The model's own tests: `test_…`, whose expected results come from the spec's tables and vectors (95_test_vectors.md), and
`witness_…`, one for each clause of a statement that has hypotheses: a concrete state and operands that meet them. -/

namespace Sys2Proof.Tests
open Sys2Proof.Machine

/-- A state in phase `p` on stream `m`, with values in the working registers that no test expects to find again. -/
def stateAt (p : Phase) (m : List Byte) (cursor : Nat) : State where
  inp := m
  cursor := cursor
  phase := p
  hdr := ⟨true, 9, 9⟩
  bodyRem := 5
  acc := 0x1122
  cnt := 7
  len := 6
  err := ⟨.none, 0⟩
  blk := .empty
  evt := []
  pay := []
  sinkHeld := false
  draws := 3

/-- The state after a meaning or a step, if there is one. -/
def next? (o : Host.Outcome State Fault Refusal) : Option State :=
  match o with
  | .next t => some t
  | .fault _ => none
  | .refused _ => none

/-- The error a meaning or a step ends in. -/
def err? (o : Host.Outcome State Fault Refusal) : Option Err := (next? o).map State.err

/-- The records and the cursor a meaning or a step ends in. -/
def records? (o : Host.Outcome State Fault Refusal) : Option (List Block × Nat) := (next? o).map fun t => (t.evt, t.cursor)

/-! ### WellFormed: for each check, a term it refuses -/

theorem test_wellFormed_sig_is_no_header : (Instr.sig).wellFormed .header = false := by decide
theorem test_wellFormed_header_is_no_signature : (Instr.padding false 0).wellFormed .signature = false := by decide
theorem test_wellFormed_accepts : (Instr.sig).wellFormed .signature = true ∧
    (Instr.reserved126 true 0xFFFFFF).wellFormed .header = true := by decide
theorem test_closable_streaminfo : (Instr.streaminfo false 33).closable = false ∧
    (Instr.streaminfo false 34).closable = true ∧ (Instr.streaminfo false 35).closable = false := by decide
theorem test_closable_seektable : (Instr.seektable false 17).closable = false ∧
    (Instr.seektable false 18).closable = true ∧ (Instr.seektable false 0).closable = true := by decide
theorem test_closable_vorbiscomment : (Instr.vorbiscomment false 7).closable = false ∧
    (Instr.vorbiscomment false 8).closable = true := by decide
theorem test_closable_picture : (Instr.picture false 31).closable = false ∧
    (Instr.picture false 32).closable = true := by decide
theorem test_closable_unsupported : (Instr.application false 4).closable = false ∧
    (Instr.cuesheet false 4).closable = false ∧ (Instr.invalid false 4).closable = false ∧
    (Instr.reserved7 false 4).closable = false := by decide

/-! ### Decode: words written from 30_encoding.md R52, R53, R54, bit by bit -/

/-- R51: "fLaC". -/
theorem test_decode_sig : decode .signature [0b01100110, 0b01001100, 0b01100001, 0b01000011, 9] = .ok (.sig, [9]) := by
  decide
/-- L = 0, type 0000000, length 34. -/
theorem test_decode_streaminfo : decodeHeaderWord 0b00000000_00000000_00000000_00100010#32 = .streaminfo false 34 := by
  decide
/-- L = 1, type 0000001, length 1. -/
theorem test_decode_padding : decodeHeaderWord 0b10000001_00000000_00000000_00000001#32 = .padding true 1 := by decide
/-- L = 0, type 0000010, length 2^23. -/
theorem test_decode_application : decodeHeaderWord 0b00000010_10000000_00000000_00000000#32 = .application false 0x800000 := by
  decide
/-- L = 1, type 0000011, length 18. -/
theorem test_decode_seektable : decodeHeaderWord 0b10000011_00000000_00000000_00010010#32 = .seektable true 18 := by decide
/-- R53's example: "84 00 00 28" is last, type 4, length 40. -/
theorem test_decode_vorbiscomment : decodeHeaderWord 0b10000100_00000000_00000000_00101000#32 = .vorbiscomment true 40 := by
  decide
/-- L = 0, type 0000101, length 396. -/
theorem test_decode_cuesheet : decodeHeaderWord 0b00000101_00000000_00000001_10001100#32 = .cuesheet false 396 := by decide
/-- L = 0, type 0000110, length 0x010203: the three length bytes are in order. -/
theorem test_decode_picture : decodeHeaderWord 0b00000110_00000001_00000010_00000011#32 = .picture false 0x010203 := by decide
/-- L = 0, type 0000111. -/
theorem test_decode_reserved7 : decodeHeaderWord 0b00000111_00000000_00000000_00000000#32 = .reserved7 false 0 := by decide
/-- L = 1, type 1000000. -/
theorem test_decode_reserved64 : decodeHeaderWord 0b11000000_00000000_00000000_00000000#32 = .reserved64 true 0 := by decide
/-- L = 0, type 1111110. -/
theorem test_decode_reserved126 : decodeHeaderWord 0b01111110_11111111_11111111_11111111#32 = .reserved126 false 0xFFFFFF := by
  decide
/-- L = 0, type 1111111. -/
theorem test_decode_invalid : decodeHeaderWord 0b01111111_00000000_00000000_00000000#32 = .invalid false 0 := by decide

/-- The host's entry points, on the first and the last row of the table. -/
theorem test_decodeTableWord : decodeTableWord 32 0x664C6143 = some .sig ∧
    decodeTableWord 32 0x7F000000 = some (.invalid false 0) ∧ decodeTableWord 24 0 = none := by decide

theorem test_withFetchWord_sig : (next? (step (State.reset.withFetchWord 32 0x664C6143))).map State.phase = some .header := by
  decide
theorem test_withFetchWord_padding :
    (next? (step (State.reset.withFetchWord 32 0x81000003))).map State.phase = some .done := by decide

/-! ### One step of each kind of instruction -/

/-- R113. -/
theorem test_sig : (next? (step (stateAt .sig [0x66, 0x4C, 0x61, 0x43, 1] 0))).map (fun t => (t.phase, t.cursor, t.acc)) =
    some (.header, 4, 0x1122) := by decide
/-- R113: "OggS" is FormatError(BAD_SIGNATURE, 0x4F676753). -/
theorem test_sig_bad : err? (step (stateAt .sig [0x4F, 0x67, 0x67, 0x53] 0)) =
    some ⟨.format .badSignature, 0x4F676753⟩ := by decide

/-- A STREAMINFO body with a different value in every field (R56). -/
def streamInfoBody : List Byte :=
  [0x10, 0x01, 0x20, 0x02, 0x00, 0x00, 0x0E, 0x12, 0x34, 0x56, 0x0A, 0xC4, 0x42, 0xF0, 0x00, 0x01, 0x02, 0x03] ++
    [0, 1, 2, 3, 4, 5, 6, 7, 8, 9, 10, 11, 12, 13, 14, 15]

def streamInfoRec : StreamInfoRec :=
  ⟨0x1001, 0x2002, 0x00000E, 0x123456, 0x0AC442F000010203, [0, 1, 2, 3, 4, 5, 6, 7, 8, 9, 10, 11, 12, 13, 14, 15]⟩

/-- R90. -/
theorem test_streaminfo : exec (.streaminfo false 34) (stateAt .header (streamInfoBody ++ [7]) 0) =
    .next { stateAt .header (streamInfoBody ++ [7]) 34 with
      hdr := ⟨false, 0, 34⟩, bodyRem := 0, acc := 0x0AC442F000010203, evt := [⟨false, 0, 34, .streamInfo streamInfoRec⟩] } := rfl
/-- R90: length 33 cannot hold the 16 checksum bytes. -/
theorem test_streaminfo_short : err? (exec (.streaminfo false 33) (stateAt .header streamInfoBody 0)) =
    some ⟨.format .bodyOverread, 16⟩ := by decide

/-- R91. -/
theorem test_padding : exec (.padding true 3) (stateAt .header [9, 9, 1, 2, 3] 2) =
    .next { stateAt .header [9, 9, 1, 2, 3] 5 with
      hdr := ⟨true, 1, 3⟩, bodyRem := 0, evt := [⟨true, 1, 3, .padding⟩], phase := .done } := rfl
/-- R91: a declared length beyond the stream is a truncation. -/
theorem test_padding_truncated : err? (exec (.padding false 4) (stateAt .header [1, 2, 3] 0)) =
    some ⟨.truncated .inBody, 0⟩ := by decide

/-- A seek point with a different value in every field (R58). -/
def seekPointBytes : List Byte := [0, 0, 0, 0, 0, 1, 0, 0, 0, 0, 0, 0, 0, 0, 2, 0, 0x10, 0x03]
def seekPoint : SeekPoint := ⟨0x10000, 0x200, 0x1003⟩

/-- R92. -/
theorem test_seektable : exec (.seektable false 18) (stateAt .header seekPointBytes 0) =
    .next { stateAt .header seekPointBytes 18 with
      hdr := ⟨false, 3, 18⟩, bodyRem := 0, acc := 0x1003, cnt := 0, evt := [⟨false, 3, 18, .seekTable ⟨[seekPoint]⟩⟩] } := rfl
/-- R93: length 20 leaves 20 mod 18 = 2 bytes. -/
theorem test_seektable_remainder : err? (exec (.seektable false 20) (stateAt .header (seekPointBytes ++ [1, 2]) 0)) =
    some ⟨.format .bodyUnderread, 2⟩ := by decide

/-- R100: vendor "ab", one comment "c"; the lengths are little-endian. -/
def commentBody : List Byte := [2, 0, 0, 0, 0x61, 0x62, 1, 0, 0, 0, 1, 0, 0, 0, 0x63]

theorem test_vorbiscomment : exec (.vorbiscomment true 15) (stateAt .header commentBody 0) =
    .next { stateAt .header commentBody 15 with
      hdr := ⟨true, 4, 15⟩, bodyRem := 0, acc := 1, cnt := 0, len := 1, phase := .done
      evt := [⟨true, 4, 15, .vorbisComment ⟨[0x61, 0x62], [[0x63]]⟩⟩] } := rfl
/-- R101: a vendor length larger than the body. -/
theorem test_vorbiscomment_overread : err? (exec (.vorbiscomment false 15) (stateAt .header (9 :: 1 :: 0 :: 0 :: commentBody) 0)) =
    some ⟨.format .bodyOverread, 265⟩ := by decide

/-- R105: type 3, MIME "x", description "yz", geometry, payload AA BB. -/
def pictureBody : List Byte :=
  [0, 0, 0, 3] ++ [0, 0, 0, 1, 0x78] ++ [0, 0, 0, 2, 0x79, 0x7A] ++ List.replicate 16 0x11 ++ [0, 0, 0, 2, 0xAA, 0xBB]

/-- R109: the payload goes to PAY, the record carries the sink's answer, whatever it is. -/
theorem test_picture : exec (.picture false 37) (stateAt .header pictureBody 0) =
    .next { stateAt .header pictureBody 37 with
      hdr := ⟨false, 6, 37⟩, bodyRem := 0, acc := 2, len := 2, pay := [[0xAA, 0xBB]], draws := 4
      evt := [⟨false, 6, 37, .picture ⟨3, [0x78], [0x79, 0x7A], 2, Config.paySink 3 [0xAA, 0xBB]⟩⟩] } := rfl
/-- R106: type 21 is BAD_PICTURE_TYPE with the code. -/
theorem test_picture_type : err? (exec (.picture false 4) (stateAt .header [0, 0, 0, 21] 0)) =
    some ⟨.format .badPictureType, 21⟩ := by decide

/-- R82. -/
theorem test_application : err? (exec (.application false 4) (stateAt .header [] 0)) =
    some ⟨.unsupported .application, 2⟩ := by decide
/-- R83. -/
theorem test_cuesheet : err? (exec (.cuesheet true 4) (stateAt .header [] 0)) = some ⟨.unsupported .cuesheet, 5⟩ := by decide
/-- R84. -/
theorem test_invalid : err? (exec (.invalid false 4) (stateAt .header [] 0)) = some ⟨.unsupported .invalid, 127⟩ := by decide
/-- R85, the two ends of the range. -/
theorem test_reserved : err? (exec (.reserved7 false 4) (stateAt .header [] 0)) = some ⟨.unsupported .reserved, 7⟩ ∧
    err? (exec (.reserved126 false 4) (stateAt .header [] 0)) = some ⟨.unsupported .reserved, 126⟩ := by decide

/-- R80: a whole step in HEADER reads its word first; ACC holds it after PADDING. -/
theorem test_step_padding : (next? (step (stateAt .header [0x01, 0, 0, 1, 0x55] 0))).map (fun t => (t.cursor, t.acc, t.phase)) =
    some (5, 0x01000001, .header) := by decide
/-- R80: three bytes are no header. -/
theorem test_step_truncated : err? (step (stateAt .header [1, 0, 0] 0)) = some ⟨.truncated .inHeader, 0⟩ := by decide

/-! ### Witnesses: what meets the hypotheses of each statement

Named after the statement, and after the clause where it has several. -/

theorem witness_DecodeOfEncodeIsTheInstruction :
    (Instr.sig).wellFormed .signature = true ∧ (Instr.picture true 0xFFFFFF).wellFormed .header = true := by decide

theorem witness_EncodeOfDecodeIsTheWord :
    decode .signature [0x66, 0x4C, 0x61, 0x43, 1] = .ok (.sig, [1]) ∧
    decode .header [0xFE, 0xFF, 0xFF, 0xFF] = .ok (.reserved126 true 0xFFFFFF, []) := by decide

theorem witness_DecoderRefusesByName :
    ([1, 2, 3] : List Byte).length < 4 ∧ 4 ≤ ([1, 2, 3, 4] : List Byte).length ∧
    ([0x66, 0x4C, 0x61, 0x44] : List Byte).take 4 ≠ Config.signature := by decide

theorem witness_MemReadAnswersTheWindow :
    ([9] : Memory).length < 1 + 1 ∧ 0 + 1 ≤ ([9] : Memory).length ∧ 1 + 0 ≤ ([9] : Memory).length := by decide

/-- The window holds 5 bytes, the stream 6: 6 bytes are over the window, 5 are over the stream from offset 2. -/
theorem witness_TakeChecksWindowThenStream_overread :
    (stateAt .body [1, 2, 3, 4, 5, 6] 0).phase = .body ∧ (stateAt .body [1, 2, 3, 4, 5, 6] 0).bodyRem.toNat < 6 := by decide

theorem witness_TakeChecksWindowThenStream_truncated :
    let s := stateAt .body [1, 2, 3, 4, 5, 6] 2
    (s.phase = .body → 5 ≤ s.bodyRem.toNat) ∧ s.inp.length < s.cursor + 5 := by decide

theorem witness_TakeChecksWindowThenStream_taken :
    let s := stateAt .body [1, 2, 3, 4, 5, 6] 1
    (s.phase = .body → 5 ≤ s.bodyRem.toNat) ∧ s.cursor + 5 ≤ s.inp.length ∧ (5 : Nat) < 2 ^ 32 := by decide

theorem witness_ReadBEAnswersTheBigEndianValue_ok : ∃ b t, take Width.w16.bytes (stateAt .body [1, 2] 0) = .ok (b, t) := ⟨_, _, rfl⟩

theorem witness_ReadBEAnswersTheBigEndianValue_error : ∃ e, take Width.w64.bytes (stateAt .body [1, 2] 0) = .error e := ⟨_, rfl⟩

theorem witness_ReadLEAnswersTheLittleEndianValue_ok : ∃ b t, take Width.w32.bytes (stateAt .body [1, 2, 3, 4] 0) = .ok (b, t) := ⟨_, _, rfl⟩

theorem witness_ReadLEAnswersTheLittleEndianValue_error : ∃ e, take Width.w32.bytes (stateAt .body [1, 2, 3] 0) = .error e := ⟨_, rfl⟩

theorem witness_SkipConsumesAndDrops_ok : ∃ b t, take 5 (stateAt .body [1, 2, 3, 4, 5] 0) = .ok (b, t) := ⟨_, _, rfl⟩

theorem witness_SkipConsumesAndDrops_error : ∃ e, take 6 (stateAt .body [1, 2, 3, 4, 5] 0) = .error e := ⟨_, rfl⟩

theorem witness_SkipConsumesAndDrops_truncated :
    let s := stateAt .body [1, 2, 3, 4] 0
    (s.phase = .body → 5 ≤ s.bodyRem.toNat) ∧ s.inp.length < s.cursor + 5 := by decide

theorem witness_SkipConsumesAndDrops_zero :
    (stateAt .body [1] 1).cursor ≤ (stateAt .body [1] 1).inp.length := by decide

theorem witness_SkipConsumesAndDrops_otherBytes :
    ([3, 4] : Memory).length = (stateAt .header [1, 2] 0).inp.length ∧
      ∃ t, skip 2 (stateAt .header [1, 2] 0) = .ok ((), t) := ⟨by decide, _, rfl⟩

/-- The one-byte string fills the window of 5 exactly. -/
theorem witness_PrefixedStringsAreReadWhole_LE :
    let s := stateAt .body [1, 0, 0, 0, 0x61] 0
    s.phase = .body ∧ 4 + [0x61#8].length ≤ s.bodyRem.toNat ∧ s.ahead (leBytes 4 [0x61#8].length ++ [0x61]) := by
  unfold State.ahead; decide

theorem witness_PrefixedStringsAreReadWhole_BE :
    let s := stateAt .body [0, 0, 0, 1, 0x61] 0
    s.phase = .body ∧ 4 + [0x61#8].length ≤ s.bodyRem.toNat ∧ s.ahead (beBytes 4 [0x61#8].length ++ [0x61]) := by
  unfold State.ahead; decide

/-- One byte more than the window has left after the prefix, in each byte order. -/
theorem witness_OverlongStringIsAnOverread :
    let s := stateAt .body [2, 0, 0, 0, 1, 1] 0
    let t := stateAt .body [0, 0, 0, 2, 1, 1] 0
    s.phase = .body ∧ t.phase = .body ∧ 2 < 2 ^ 32 ∧ 4 ≤ s.bodyRem.toNat ∧ s.bodyRem.toNat - 4 < 2 ∧
      4 ≤ t.bodyRem.toNat ∧ t.bodyRem.toNat - 4 < 2 ∧ s.ahead (leBytes 4 2) ∧ t.ahead (beBytes 4 2) := by
  unfold State.ahead; decide

theorem witness_SignaturePasses :
    let s := stateAt .sig [0x66, 0x4C, 0x61, 0x43] 0
    s.phase = .sig ∧ s.ahead [0x66, 0x4C, 0x61, 0x43] := by
  unfold State.ahead; decide

theorem witness_BadOrShortSignatureFails_bad :
    let s := stateAt .sig [0x66, 0x4C, 0x61, 0x44] 0
    s.phase = .sig ∧ s.ahead [0x66, 0x4C, 0x61, 0x44] ∧
      ([0x66, 0x4C, 0x61, 0x44] : List Byte) ≠ [0x66, 0x4C, 0x61, 0x43] := by
  unfold State.ahead; decide

theorem witness_BadOrShortSignatureFails_short :
    let s := stateAt .sig [0x66, 0x4C, 0x61] 0
    s.phase = .sig ∧ s.inp.length < s.cursor + 4 := by decide

theorem witness_ApplicationCuesheetInvalidFailAtDispatch : (stateAt .header [] 0).phase = .header := by decide

theorem witness_ReservedCodesFailAtDispatch :
    (7 ≤ (7 : BitVec 7).toNat ∧ (7 : BitVec 7).toNat ≤ 126) ∧ 7 ≤ (126 : BitVec 7).toNat ∧
      (126 : BitVec 7).toNat ≤ 126 ∧ (stateAt .header [] 0).phase = .header := by decide

theorem witness_OpcodeMapIsOneToOne :
    instrOfCode 5 true 1 = instrOfCode 5 true 1 ∧ Instr.cuesheet true 1 ≠ .sig := by decide

theorem witness_StreamInfoReportsItsFields :
    let s := stateAt .header streamInfoBody 0
    let r := streamInfoRec
    s.phase = .header ∧ r.checksum.length = 16 ∧
      s.ahead (beBytes 2 r.minBlockSize.toNat ++ beBytes 2 r.maxBlockSize.toNat ++ beBytes 3 r.minFrameSize.toNat ++
        beBytes 3 r.maxFrameSize.toNat ++ beBytes 8 r.packed.toNat ++ r.checksum) := by
  unfold State.ahead; decide

/-- The ends of the range: a body of no byte, and one of 33. -/
theorem witness_ShortStreamInfoOverreads :
    (stateAt .header [] 0).phase = .header ∧ (0 : BitVec 24).toNat < 34 ∧ (33 : BitVec 24).toNat < 34 ∧
      (stateAt .header [] 0).cursor + (0 : BitVec 24).toNat ≤ (stateAt .header [] 0).inp.length ∧
      (stateAt .header streamInfoBody 1).cursor + (33 : BitVec 24).toNat ≤
        (stateAt .header streamInfoBody 1).inp.length := by decide

theorem witness_LongStreamInfoFails_truncated :
    let s := stateAt .header streamInfoBody 1
    s.phase = .header ∧ 34 ≤ (34 : BitVec 24).toNat ∧ s.inp.length < s.cursor + 34 := by decide

theorem witness_LongStreamInfoFails_underread :
    let s := stateAt .header streamInfoBody 0
    s.phase = .header ∧ 34 < (35 : BitVec 24).toNat ∧ s.cursor + 34 ≤ s.inp.length := by decide

theorem witness_PaddingSkipsItsBody_there :
    let s := stateAt .header [1, 2, 3] 0
    s.phase = .header ∧ s.cursor + (3 : BitVec 24).toNat ≤ s.inp.length ∧
      s.cursor + (0 : BitVec 24).toNat ≤ s.inp.length := by decide

theorem witness_PaddingSkipsItsBody_truncated :
    let s := stateAt .header [1, 2, 3] 0
    s.phase = .header ∧ s.inp.length < s.cursor + (4 : BitVec 24).toNat := by decide

theorem witness_SeekTableReportsItsPoints_none :
    let s := stateAt .header [] 0
    s.phase = .header ∧ (0 : BitVec 24).toNat = 18 * ([] : List SeekPoint).length ∧ s.cursor ≤ s.inp.length ∧
      s.ahead (([] : List SeekPoint).flatMap fun p =>
        beBytes 8 p.sampleNumber.toNat ++ beBytes 8 p.byteOffset.toNat ++ beBytes 2 p.frameSamples.toNat) := by
  unfold State.ahead; decide

theorem witness_SeekTableReportsItsPoints_one :
    let s := stateAt .header seekPointBytes 0
    s.phase = .header ∧ (18 : BitVec 24).toNat = 18 * [seekPoint].length ∧ s.cursor ≤ s.inp.length ∧
      s.ahead ([seekPoint].flatMap fun p =>
        beBytes 8 p.sampleNumber.toNat ++ beBytes 8 p.byteOffset.toNat ++ beBytes 2 p.frameSamples.toNat) := by
  unfold State.ahead; decide

theorem witness_SeekTableRemainderFails_remainder :
    let s := stateAt .header [] 0
    s.phase = .header ∧ s.cursor ≤ s.inp.length ∧ (1 : BitVec 24).toNat % 18 ≠ 0 ∧
      s.cursor + 18 * ((1 : BitVec 24).toNat / 18) ≤ s.inp.length := by decide

theorem witness_SeekTableRemainderFails_truncated :
    let s := stateAt .header seekPointBytes 1
    s.phase = .header ∧ s.cursor ≤ s.inp.length ∧ s.inp.length < s.cursor + 18 * ((18 : BitVec 24).toNat / 18) := by decide

/-- The least body: no vendor byte, no comment. -/
theorem witness_VorbisCommentReportsItsStrings_least :
    let s := stateAt .header [0, 0, 0, 0, 0, 0, 0, 0] 0
    s.phase = .header ∧
      (8 : BitVec 24).toNat = 8 + ([] : List Byte).length + (([] : List (List Byte)).map fun c => 4 + c.length).sum ∧
      s.ahead (leBytes 4 ([] : List Byte).length ++ [] ++ leBytes 4 ([] : List (List Byte)).length ++
        ([] : List (List Byte)).flatMap fun c => leBytes 4 c.length ++ c) := by
  unfold State.ahead; decide

theorem witness_VorbisCommentReportsItsStrings_one :
    let s := stateAt .header commentBody 0
    s.phase = .header ∧
      (15 : BitVec 24).toNat = 8 + [0x61#8, 0x62].length + ([[0x63#8]].map fun c => 4 + c.length).sum ∧
      s.ahead (leBytes 4 [0x61#8, 0x62].length ++ [0x61, 0x62] ++ leBytes 4 [[0x63#8]].length ++
        [[0x63#8]].flatMap fun c => leBytes 4 c.length ++ c) := by
  unfold State.ahead; decide

/-- One byte more than an empty comment list uses. -/
theorem witness_VorbisCommentMustFillItsBody_underread :
    let s := stateAt .header [0, 0, 0, 0, 0, 0, 0, 0, 9] 0
    s.phase = .header ∧ 0 < 2 ^ 32 ∧ 0 = ([] : List (List Byte)).length ∧
      8 + ([] : List Byte).length + (([] : List (List Byte)).map fun c => 4 + c.length).sum < (9 : BitVec 24).toNat ∧
      s.ahead (leBytes 4 ([] : List Byte).length ++ [] ++ leBytes 4 0 ++
        ([] : List (List Byte)).flatMap fun c => leBytes 4 c.length ++ c) := by
  unfold State.ahead; decide

/-- One comment announced and no byte, and three bytes, left for it. -/
theorem witness_VorbisCommentMustFillItsBody_overread :
    let s := stateAt .header [0, 0, 0, 0, 1, 0, 0, 0] 0
    let used := 8 + ([] : List Byte).length + (([] : List (List Byte)).map fun c => 4 + c.length).sum
    s.phase = .header ∧ 1 < 2 ^ 32 ∧ ([] : List (List Byte)).length < 1 ∧ used ≤ (8 : BitVec 24).toNat ∧
      (8 : BitVec 24).toNat < used + 4 ∧ used ≤ (11 : BitVec 24).toNat ∧ (11 : BitVec 24).toNat < used + 4 ∧
      s.ahead (leBytes 4 ([] : List Byte).length ++ [] ++ leBytes 4 1 ++
        ([] : List (List Byte)).flatMap fun c => leBytes 4 c.length ++ c) := by
  unfold State.ahead; decide

/-- The least picture, of the largest type. -/
def leastPicture : List Byte := [0, 0, 0, 20] ++ [0, 0, 0, 0] ++ [0, 0, 0, 0] ++ List.replicate 16 0x11 ++ [0, 0, 0, 0]

theorem witness_PictureReportsAndHandsOver :
    let s := stateAt .header leastPicture 0
    s.phase = .header ∧ (20 : BitVec 32).toNat ≤ 20 ∧ (List.replicate 16 0x11#8).length = 16 ∧
      (32 : BitVec 24).toNat = 32 + ([] : List Byte).length + ([] : List Byte).length + ([] : List Byte).length ∧
      s.ahead (beBytes 4 (20 : BitVec 32).toNat ++ (beBytes 4 ([] : List Byte).length ++ []) ++
        (beBytes 4 ([] : List Byte).length ++ []) ++ List.replicate 16 0x11 ++ (beBytes 4 ([] : List Byte).length ++ [])) := by
  unfold State.ahead; decide

theorem witness_UnknownPictureTypeFails :
    let s := stateAt .header [0, 0, 0, 21] 0
    s.phase = .header ∧ 20 < (21 : BitVec 32).toNat ∧ 4 ≤ (4 : BitVec 24).toNat ∧
      s.ahead (beBytes 4 (21 : BitVec 32).toNat) := by
  unfold State.ahead; decide

theorem witness_PictureHandsOverBeforeClose :
    let s := stateAt .header leastPicture 0
    s.phase = .header ∧ (20 : BitVec 32).toNat ≤ 20 ∧ (List.replicate 16 0x11#8).length = 16 ∧
      32 + ([] : List Byte).length + ([] : List Byte).length + ([] : List Byte).length < (33 : BitVec 24).toNat ∧
      s.ahead (beBytes 4 (20 : BitVec 32).toNat ++ (beBytes 4 ([] : List Byte).length ++ []) ++
        (beBytes 4 ([] : List Byte).length ++ []) ++ List.replicate 16 0x11 ++ (beBytes 4 ([] : List Byte).length ++ [])) := by
  unfold State.ahead; decide

theorem witness_EnabledInstructionsComplete :
    (stateAt .sig [] 0).phase = (match (Instr.sig).slot with | .signature => .sig | .header => .header) ∧
    (stateAt .header [] 0).phase = (match (Instr.picture false 0).slot with | .signature => .sig | .header => .header) := by
  decide

theorem witness_DisabledInstructionsStop :
    (stateAt .done [] 0).phase ≠ (match (Instr.sig).slot with | .signature => .sig | .header => .header) ∧
    (stateAt .sig [] 0).phase ≠ (match (Instr.picture false 0).slot with | .signature => .sig | .header => .header) := by
  decide

/-- Also for `OnlyClosableLengthsClose`. -/
theorem witness_ClosedBlockFrame : ∃ t, (Instr.padding true 3).slot = .header ∧
    exec (.padding true 3) (stateAt .header [1, 2, 3] 0) = .next t ∧ t.phase ≠ .failed :=
  ⟨_, rfl, rfl, by decide⟩

theorem witness_ClosedBlockRegisterFrame_streaminfo : ∃ t,
    exec (.streaminfo false 34) (stateAt .header streamInfoBody 0) = .next t ∧ t.phase ≠ .failed := ⟨_, rfl, by decide⟩

theorem witness_ClosedBlockRegisterFrame_padding : ∃ t,
    exec (.padding false 0) (stateAt .header [] 0) = .next t ∧ t.phase ≠ .failed := ⟨_, rfl, by decide⟩

theorem witness_ClosedBlockRegisterFrame_seektable : ∃ t,
    exec (.seektable false 18) (stateAt .header seekPointBytes 0) = .next t ∧ t.phase ≠ .failed := ⟨_, rfl, by decide⟩

theorem witness_ClosedBlockRegisterFrame_vorbiscomment : ∃ t,
    exec (.vorbiscomment false 15) (stateAt .header commentBody 0) = .next t ∧ t.phase ≠ .failed := ⟨_, rfl, by decide⟩

theorem witness_ClosedBlockRegisterFrame_picture : ∃ t,
    exec (.picture false 37) (stateAt .header pictureBody 0) = .next t ∧ t.phase ≠ .failed := ⟨_, rfl, by decide⟩

theorem witness_FailedInstructionFrame : ∃ t,
    exec (.picture false 33) (stateAt .header (leastPicture ++ [1]) 0) = .next t ∧ t.phase = .failed := ⟨_, rfl, rfl⟩

theorem witness_OnlyClosableLengthsClose : ∃ t,
    exec (.picture false 37) (stateAt .header pictureBody 0) = .next t ∧ t.phase ≠ .failed := ⟨_, rfl, by decide⟩

theorem witness_StepRunsTheDecodedInstruction_sig :
    (stateAt .sig [1] 0).inp.length < 2 ^ 64 ∧ (stateAt .sig [1] 0).phase = .sig := by decide

theorem witness_StepRunsTheDecodedInstruction_header :
    let s := stateAt .header [9, 0x81, 0, 0, 1, 5] 1
    s.inp.length < 2 ^ 64 ∧ s.phase = .header ∧
      decode .header (s.inp.drop s.cursor) = .ok (.padding true 1, [5]) := by decide

theorem witness_MissingHeaderIsTruncation :
    let s := stateAt .header [1, 2, 3, 4] 1
    s.inp.length < 2 ^ 64 ∧ s.phase = .header ∧ s.inp.length < s.cursor + 4 := by decide

theorem witness_EndedDecodeTakesNoStep : (stateAt .done [] 0).phase = .done ∧ (stateAt .failed [] 0).phase = .failed ∧
    (stateAt .body [] 0).phase = .body ∧ (stateAt .done [] 0).inp.length < 2 ^ 64 := by decide

theorem witness_TooLongStreamIsRefused :
    2 ^ 64 ≤ (stateAt .sig (List.replicate (2 ^ 64) 0) 0).inp.length := by
  simp only [stateAt, List.length_replicate, Nat.le_refl]

/-- One step of each transition of the table. -/
theorem witness_PhaseTransitionsAreTheTables :
    (∃ t, step (stateAt .sig [0x66, 0x4C, 0x61, 0x43] 0) = .next t ∧ t.phase = .header) ∧
    (∃ t, step (stateAt .sig [] 0) = .next t ∧ t.phase = .failed) ∧
    (∃ t, step (stateAt .header [0x01, 0, 0, 0] 0) = .next t ∧ t.phase = .header) ∧
    (∃ t, step (stateAt .header [0x81, 0, 0, 0] 0) = .next t ∧ t.phase = .done) ∧
    (∃ t, step (stateAt .header [0x02, 0, 0, 0] 0) = .next t ∧ t.phase = .failed) :=
  ⟨⟨_, rfl, rfl⟩, ⟨_, rfl, rfl⟩, ⟨_, rfl, rfl⟩, ⟨_, rfl, rfl⟩, ⟨_, rfl, rfl⟩⟩

theorem witness_StepsMoveForward : ∃ t, step (stateAt .header [0x01, 0, 0, 0] 0) = .next t ∧ t.phase ≠ .failed :=
  ⟨_, rfl, by decide⟩

/-- The same step on a stream that goes on differently after the bytes consumed. -/
theorem witness_StepSeesOnlyWhatItConsumes : ∃ t, step (stateAt .header [7, 0x01, 0, 0, 1, 9, 9] 1) = .next t ∧
    t.phase ≠ .failed ∧ ([8, 0x01, 0, 0, 1, 9] : Memory).length < 2 ^ 64 ∧ t.cursor ≤ ([8, 0x01, 0, 0, 1, 9] : Memory).length ∧
    (([8, 0x01, 0, 0, 1, 9] : Memory).drop 1).take (t.cursor - 1) =
      (([7, 0x01, 0, 0, 1, 9, 9] : Memory).drop 1).take (t.cursor - 1) :=
  ⟨_, rfl, by decide, by decide, by decide, by decide⟩

theorem witness_UnwrittenRegistersInfluenceNothing : ∃ t, step (stateAt .header [0x06, 0, 0, 0] 0) = .next t := ⟨_, rfl⟩

/-- A sound state in the middle of a decode: one padding block behind it, another before it. -/
def soundState : State :=
  { stateAt .header [0x66, 0x4C, 0x61, 0x43, 0x01, 0, 0, 1, 9, 0x81, 0, 0, 0] 9 with evt := [⟨false, 1, 1, .padding⟩] }

theorem witness_Inv : Inv soundState where
  streamFits := by decide
  resting := by decide
  errIffFailed := by decide
  noErrNoInfo := by decide
  blkEmpty := by decide
  sinkFree := by decide
  atStart := by decide
  signed := by decide
  framing := by decide
  records := by
    intro b hb
    simp only [soundState, List.mem_singleton] at hb
    subst hb
    exact ⟨rfl, trivial⟩
  lastFlags := by
    rw [if_neg (by decide)]
    decide
  payloads := by decide

theorem witness_Explained : Inv.Explained soundState := fun _ =>
  ⟨by decide, Parsed.block Parsed.signature (more := []) ⟨[9], rfl, rfl, rfl, rfl⟩⟩

/-- For `StepKeepsSoundness` and `StepKeepsTheStreamExplained`, with `witness_Inv` and `witness_Explained`. -/
theorem witness_Inv_step : ∃ t, step soundState = .next t ∧ t.phase = .done := ⟨_, rfl, rfl⟩

/-- For `EveryDecodeEnds`: a sound state that has not ended. -/
theorem witness_EveryDecodeEnds : Inv soundState ∧ ¬ soundState.ended :=
  ⟨witness_Inv, by unfold State.ended; decide⟩

theorem witness_ResetAndLaunchAreSound : ([0x66, 0x4C] : Memory).length < 2 ^ 64 := by decide

theorem witness_MachineComputesTheReferenceFunction : ([0x66, 0x4C] : Memory).length < 2 ^ 64 := by decide

end Sys2Proof.Tests
end

section
/-! Streams past R5's bound: when the model rejects a stream, and what a step answers on one. -/

namespace Sys2Proof.Machine

/-- The streams outside R5's bound are exactly those that are not well-formed. -/
theorem wf_eq_false_iff {m : Memory} : m.wf = false ↔ 2 ^ 64 ≤ m.length := by
  rw [Bool.eq_false_iff, ← Nat.not_lt]
  exact not_congr ⟨lt_of_wf, wf_of_lt⟩

/-- The stream's bound is checked before the phase is looked at (R5). -/
theorem step_of_not_wf {s : State} (h : s.inp.wf = false) : step s = .refused .streamTooLong := if_pos h

/-- Settles O42: the step's first check fails on such a stream, whatever the phase. -/
theorem tooLongStreamIsRefused : Obligations.TooLongStreamIsRefused := fun _ hlong =>
  step_of_not_wf (wf_eq_false_iff.mpr hlong)

end Sys2Proof.Machine
end

section
/-! The step, by phase, and what a step can end in, in one place for all instructions (R114): past the signature, a
block closed, or a failure entry. The statements about single steps are read off these three ends. -/

namespace Sys2Proof.Machine

/-! ### The step, by phase -/

theorem step_of_sig {s : State} (hwf : s.inp.length < 2 ^ 64) (hp : s.phase = .sig) : step s = exec .sig s := by
  simp [step, wf_of_lt hwf, hp]

theorem step_of_header {s : State} (hwf : s.inp.length < 2 ^ 64) (hp : s.phase = .header)
    (hn : s.cursor + 4 ≤ s.inp.length) : step s = exec (nextInstr s) (fetched s) := by
  obtain ⟨-, h⟩ | ⟨hlt, -⟩ := fetchHeader_cases hp
  · rw [step, if_neg (by simp [wf_of_lt hwf]), hp]
    simp only [h]
    rfl
  · omega

theorem step_of_missing_header {s : State} (hwf : s.inp.length < 2 ^ 64) (hp : s.phase = .header)
    (hn : s.inp.length < s.cursor + 4) : step s = .next (s.failureEntry (.truncated .inHeader) 0) := by
  obtain ⟨hle, -⟩ | ⟨-, h⟩ := fetchHeader_cases hp
  · omega
  · simp [step, wf_of_lt hwf, hp, h]

/-! ### The ends of a step -/

@[simp] theorem fetched_cursor (s : State) : (fetched s).cursor = s.cursor + 4 := rfl

/-- A failure after the header read is a failure of the whole step: the read moves CURSOR and ACC only, and neither
survives a failure entry. -/
theorem FailsWith.of_fetched {s t : State} {ps : List (List Byte)} {r : Reason} {i : BitVec 32}
    (h : FailsWith (fetched s) t ps r i) : FailsWith s t ps r i :=
  ⟨h.inp, h.phase, h.err, h.blk, h.evt, h.pay, h.sink, h.named⟩

/-- The three ends of a step, with what was true before it. -/
theorem step_ends {s t : State} (h : step s = .next t) :
    (s.phase = .sig ∧ s.ahead Config.signature ∧ t = (s.advance 4).setPhase .header) ∨
    (s.phase = .header ∧ s.cursor + 4 ≤ s.inp.length ∧
      ∃ hdr bs body ps, Closes (fetched s) t hdr bs body ps) ∨
    ((s.phase = .sig ∨ s.phase = .header) ∧ ∃ ps r i, FailsWith s t ps r i ∧ ps.length ≤ 1) := by
  obtain ⟨-, hsig | ⟨hp, r, i, hf⟩ | ⟨hp, -, hf⟩ | ⟨hp, hn, -, hb⟩⟩ := step_cases h
  · exact .inl hsig
  · exact .inr (.inr ⟨.inl hp, [], r, i, hf, Nat.zero_le _⟩)
  · exact .inr (.inr ⟨.inr hp, [], _, _, hf, Nat.zero_le _⟩)
  · obtain ⟨_, ⟨⟩, ⟨bs, body, ps, hc⟩ | ⟨ps, r, i, hf, hl, -⟩⟩ := hb
    · exact .inr (.inl ⟨hp, hn, _, bs, body, ps, hc⟩)
    · exact .inr (.inr ⟨.inr hp, ps, r, i, hf.of_fetched, hl⟩)

/-- A step answers a next state in SIG and in HEADER only (R114). -/
theorem step_enabled {s t : State} (h : step s = .next t) : s.phase = .sig ∨ s.phase = .header := by
  obtain ⟨hp, -⟩ | ⟨hp, -⟩ | ⟨hp, -⟩ := step_ends h
  · exact .inl hp
  · exact .inr hp
  · exact hp

/-- A block that closes goes on or ends the decode, as its last-flag says (R86). -/
theorem phaseAfterClose_cases (isLast : Bool) :
    (isLast = true ∧ phaseAfterClose isLast = .done) ∨ (isLast = false ∧ phaseAfterClose isLast = .header) := by
  cases isLast
  · exact .inr ⟨rfl, rfl⟩
  · exact .inl ⟨rfl, rfl⟩

/-- Settles O43: each of the three ends of a step is in the table, by the phase it leaves. -/
theorem phaseTransitionsAreTheTables : Obligations.PhaseTransitionsAreTheTables := by
  intro s t h
  obtain ⟨hp, -, rfl⟩ | ⟨hp, -, hdr, bs, body, ps, hc⟩ | ⟨hp, ps, r, i, hf, -⟩ := step_ends h
  · simp [hp]
  · obtain ⟨-, hq⟩ | ⟨-, hq⟩ := phaseAfterClose_cases hdr.isLast <;> simp [hp, hc.phase, hq]
  · obtain hp | hp := hp <;> simp [hp, hf.phase]

/-- The body of a block that closes lies inside the stream. -/
theorem Closes.inside {s t : State} {hdr : Hdr} {bs : List Byte} {body : Body} {ps : List (List Byte)}
    (h : Closes s t hdr bs body ps) (hc : s.cursor ≤ s.inp.length) : t.cursor ≤ t.inp.length := by
  rw [h.cursor, h.inp]
  by_cases hb : bs = []
  · simpa [hb] using hc
  · exact h.ahead.fits hb

/-- One block puts at most one payload on PAY. -/
theorem Body.Encodes.length_payloads_le {b : Body} {ps : List (List Byte)} {bs : List Byte} (h : b.Encodes ps bs) :
    ps.length ≤ 1 := by
  by_cases ht : b.typeCode = 6
  · cases b with
    | picture r =>
      obtain ⟨_, _, -, -, -, rfl, -⟩ := h
      exact Nat.le_refl 1
    | _ => simp [Body.typeCode] at ht
  · simp [h.nil_of_ne_picture ht]

theorem append_eq_self_or_singleton {α : Type} (xs : List α) {ys : List α} (h : ys.length ≤ 1) :
    xs ++ ys = xs ∨ ∃ y, xs ++ ys = xs ++ [y] := by
  obtain rfl | ⟨y, rfl⟩ : ys = [] ∨ ∃ y, ys = [y] := by
    simpa [Nat.le_one_iff_eq_zero_or_eq_one, List.length_eq_one_iff] using h
  · exact .inl (List.append_nil xs)
  · exact .inr ⟨y, rfl⟩

/-- Settles O44: the signature and a closed block each consume four bytes or more inside the stream, and a block puts at
most one payload and one record out. -/
theorem stepsMoveForward : Obligations.StepsMoveForward := by
  intro s t h
  obtain ⟨-, ha, rfl⟩ | ⟨-, hn, hdr, bs, body, ps, hc⟩ | ⟨-, ps, r, i, hf, hl⟩ := step_ends h
  · have hfit : s.cursor + 4 ≤ s.inp.length := ha.fits (by decide)
    exact ⟨rfl, fun _ => ⟨Nat.le_refl _, hfit⟩, .inl rfl, .inl rfl⟩
  · refine ⟨hc.inp, fun _ => ⟨?_, hc.inside hn⟩, .inr ⟨_, hc.evt⟩, ?_⟩
    · rw [hc.cursor]
      exact Nat.le_add_right _ _
    · rw [hc.pay]
      exact append_eq_self_or_singleton _ hc.encodes.length_payloads_le
  · refine ⟨hf.inp, fun hne => absurd hf.phase hne, .inl hf.evt, ?_⟩
    rw [hf.pay]
    exact append_eq_self_or_singleton _ hl

end Sys2Proof.Machine
end

section
/-! Soundness (R14, R17, R19, R22, R115, R128): it holds at the start of every decode, and each of the three ends of a
step keeps it. -/

namespace Sys2Proof.Machine

section
variable (m : Memory)

@[simp] theorem launch_inp : (State.launch m).inp = m := rfl
@[simp] theorem launch_cursor : (State.launch m).cursor = 0 := rfl
@[simp] theorem launch_phase : (State.launch m).phase = .sig := rfl
@[simp] theorem launch_err : (State.launch m).err = ⟨.none, 0⟩ := rfl
@[simp] theorem launch_blk : (State.launch m).blk = .empty := rfl
@[simp] theorem launch_evt : (State.launch m).evt = [] := rfl
@[simp] theorem launch_pay : (State.launch m).pay = [] := rfl
@[simp] theorem launch_sinkHeld : (State.launch m).sinkHeld = false := rfl
end

/-! ### The invariant's conditional clauses, by phase -/

theorem Inv.noErr {s : State} (h : Inv s) (hp : s.phase ≠ .failed) : s.err.reason = .none :=
  not_not.1 fun hne => hp (h.errIffFailed.1 hne)

theorem Inv.noneLast {s : State} (h : Inv s) (hp : s.phase ≠ .done) : ∀ b ∈ s.evt, b.isLast = false := by
  simpa only [if_neg hp] using h.lastFlags

theorem Inv.paysAsReported {s : State} (h : Inv s) (hp : s.phase ≠ .failed) :
    s.pay.map List.length = s.reportedPayloads := by
  simpa only [if_neg hp] using h.payloads

/-! ### The start and the three ends of a step -/

theorem inv_launch {m : Memory} (hm : m.length < 2 ^ 64) : Inv (State.launch m) where
  streamFits := hm
  resting := by simp
  errIffFailed := by simp
  noErrNoInfo := by simp
  blkEmpty := rfl
  sinkFree := rfl
  atStart := by simp
  signed := by simp
  framing := by simp
  records := by simp
  lastFlags := by simp
  payloads := by simp [State.reportedPayloads]

/-- The signature check passed (R113): the four bytes consumed are the first of the stream, and nothing is out yet. -/
theorem Inv.signaturePassed {s : State} (h : Inv s) (hp : s.phase = .sig) (ha : s.ahead Config.signature) :
    Inv ((s.advance 4).setPhase .header) := by
  obtain ⟨hcur, hevt, hpay⟩ := h.atStart hp
  have hfit : s.cursor + 4 ≤ s.inp.length := ha.fits (by decide)
  have htake : (s.inp.drop s.cursor).take 4 = Config.signature := ha.take_eq
  rw [hcur, List.drop_zero] at htake
  exact {
    streamFits := h.streamFits
    resting := by simp
    errIffFailed := by simp [h.noErr (by simp [hp])]
    noErrNoInfo := h.noErrNoInfo
    blkEmpty := h.blkEmpty
    sinkFree := h.sinkFree
    atStart := by simp
    signed := fun _ => htake
    framing := fun _ => ⟨by simp [hcur, hevt], hfit⟩
    records := by simp [hevt]
    lastFlags := by simp [hevt]
    payloads := by simp [State.reportedPayloads, hevt, hpay] }

/-- A failure entry (R127, R128): EVT is as it was, and PAY holds at most one payload that no record reports. -/
theorem Inv.fails {s t : State} {ps : List (List Byte)} {r : Reason} {i : BitVec 32} (h : Inv s)
    (hp : s.phase = .sig ∨ s.phase = .header) (hf : FailsWith s t ps r i) (hl : ps.length ≤ 1) : Inv t := by
  have hdone : s.phase ≠ .done := by obtain hp | hp := hp <;> simp [hp]
  have hfailed : s.phase ≠ .failed := by obtain hp | hp := hp <;> simp [hp]
  have hrep : t.reportedPayloads = s.pay.map List.length := by
    rw [h.paysAsReported hfailed, State.reportedPayloads, hf.evt, State.reportedPayloads]
  exact {
    streamFits := hf.inp ▸ h.streamFits
    resting := by simp [hf.phase]
    errIffFailed := by simp [hf.err, hf.phase, hf.named]
    noErrNoInfo := fun hn => absurd hn (by simpa [hf.err] using hf.named)
    blkEmpty := hf.blk
    sinkFree := hf.sink h.sinkFree
    atStart := by simp [hf.phase]
    signed := by simp [hf.phase]
    framing := by simp [hf.phase]
    records := hf.evt ▸ h.records
    lastFlags := by simpa [hf.phase, hf.evt] using h.noneLast hdone
    payloads := by simpa [hf.phase, hrep, hf.pay] using hl }

/-- A block closed (R86): one record more, framed by the bytes it was read from, and the payloads it reports. -/
theorem Inv.closes {s t : State} {hdr : Hdr} {bs : List Byte} {body : Body} {ps : List (List Byte)} (h : Inv s)
    (hp : s.phase = .header) (hn : s.cursor + 4 ≤ s.inp.length) (hc : Closes (fetched s) t hdr bs body ps) : Inv t := by
  have hevt : t.evt = s.evt ++ [⟨hdr.isLast, hdr.blockType, hdr.length, body⟩] := hc.evt
  have hinp : t.inp = s.inp := hc.inp
  have herr : t.err = s.err := hc.err
  have hnone : s.err.reason = .none := h.noErr (by simp [hp])
  have hflags := h.noneLast (by simp [hp])
  have hphase := hc.phase
  have hcases := phaseAfterClose_cases hdr.isLast
  have hlive : t.phase ≠ .failed ∧ t.phase ≠ .sig ∧ t.phase ≠ .body := by
    obtain ⟨-, hq⟩ | ⟨-, hq⟩ := hcases <;> simp [hphase, hq]
  obtain ⟨hfailed, hsig, hbody⟩ := hlive
  exact {
    streamFits := hinp ▸ h.streamFits
    resting := hbody
    errIffFailed := by simp [herr, hnone, hfailed]
    noErrNoInfo := herr ▸ h.noErrNoInfo
    blkEmpty := hc.blk
    sinkFree := hc.sink h.sinkFree
    atStart := fun hs => absurd hs hsig
    signed := fun _ => hinp ▸ h.signed (.inl hp)
    framing := fun _ => by
      refine ⟨?_, hc.inside hn⟩
      rw [hc.cursor, fetched_cursor, (h.framing (.inl hp)).1, hc.length, hevt]
      simp [Block.span]
      omega
    records := by
      rw [hevt]
      exact List.forall_mem_append.2 ⟨h.records, List.forall_mem_singleton.2 (hc.encodes.framed hc.length hc.typeCode)⟩
    lastFlags := by
      obtain ⟨hl, hq⟩ | ⟨hl, hq⟩ := hcases
      · rw [if_pos (hphase.trans hq), hevt]
        exact ⟨s.evt, _, rfl, hl, hflags⟩
      · rw [if_neg (by simp [hphase, hq]), hevt]
        exact List.forall_mem_append.2 ⟨hflags, List.forall_mem_singleton.2 hl⟩
    payloads := by
      rw [if_neg hfailed, State.reportedPayloads, hevt, List.filterMap_append, hc.encodes.payloadLengths, hc.pay,
        List.map_append]
      exact congrArg (· ++ _) (h.paysAsReported (by simp [hp])) }

/-- Settles O48: each of the three ends of a step keeps the invariant. -/
theorem stepKeepsSoundness : Obligations.StepKeepsSoundness := by
  intro s t hi h
  obtain ⟨hp, ha, rfl⟩ | ⟨hp, hn, hdr, bs, body, ps, hc⟩ | ⟨hp, ps, r, i, hf, hl⟩ := step_ends h
  · exact hi.signaturePassed hp ha
  · exact hi.closes hp hn hc
  · exact hi.fails hp hf hl

/-- Settles O47: reset is the launch on the empty stream, and in phase SIG nothing has to be explained yet. -/
theorem resetAndLaunchAreSound : Obligations.ResetAndLaunchAreSound := by
  refine ⟨inv_launch (m := []) (by simp), fun m hm => ⟨inv_launch hm, ?_⟩⟩
  simp [Inv.Explained]

end Sys2Proof.Machine
end

section
/-! The values the spec gives: the registers after reset (R23, R140) and the numbers STATUS shows (R12, R124). -/

namespace Sys2Proof.Machine

/-- Settles O6: the fields of a launched state, one by one. -/
theorem resetHoldsWhatTheSpecGives : Obligations.ResetHoldsWhatTheSpecGives := fun m =>
  ⟨launch_phase m, launch_cursor m, launch_err m, launch_blk m, launch_evt m, launch_pay m, launch_sinkHeld m,
    launch_inp m, rfl, rfl⟩

/-- Settles O7: the code tables, evaluated at every phase, kind and cause. -/
theorem statusNumbers : Obligations.StatusNumbers :=
  ⟨rfl, fun _ => ⟨rfl, rfl⟩, fun _ _ => rfl, fun _ _ => rfl, fun _ _ => rfl, fun _ => rfl, fun _ => rfl, fun _ => rfl,
    fun _ => rfl⟩

end Sys2Proof.Machine
end

section
/-! Two runs side by side (R23, U10): an operation that ignores a relation between states answers the same value on both
and keeps the relation, or fails on both in one and the same state. -/

namespace Sys2Proof.Machine

/-- Two runs end alike: with one value in related states, or in one failed state. -/
inductive SameResult {α : Type} (R : State → State → Prop) :
    Except State (α × State) → Except State (α × State) → Prop where
  | ok {x : α} {t v : State} : R t v → SameResult R (.ok (x, t)) (.ok (x, v))
  | error {e : State} : SameResult R (.error e) (.error e)

/-- From states related by `R` the operation ends alike. -/
def Ignores {α : Type} (R : State → State → Prop) (op : Op α) : Prop :=
  ∀ s u, R s u → SameResult R (op s) (op u)

section
variable {R Q : State → State → Prop} {α β : Type} {s u : State}

theorem SameResult.of_ok {op : Op α} {t v : State} {x : α} (hs : op s = .ok (x, t)) (hu : op u = .ok (x, v))
    (h : R t v) : SameResult R (op s) (op u) := by
  rw [hs, hu]
  exact .ok h

theorem SameResult.of_error {op : Op α} {e : State} (hs : op s = .error e) (hu : op u = .error e) :
    SameResult R (op s) (op u) := by
  rw [hs, hu]
  exact .error

theorem SameResult.imp {r q : Except State (α × State)} (h : SameResult R r q) (hi : ∀ t v, R t v → Q t v) :
    SameResult Q r q := by
  cases h with
  | ok h => exact .ok (hi _ _ h)
  | error => exact .error

theorem SameResult.bind {x : Op α} {f : α → Op β} (hx : SameResult R (x s) (x u)) (hf : ∀ a, Ignores R (f a)) :
    SameResult R ((x >>= f) s) ((x >>= f) u) := by
  rw [op_bind, op_bind]
  generalize x s = r, x u = q at hx
  cases hx with
  | ok h => exact hf _ _ _ h
  | error => exact .error

/-- A whole step (R114): the operation, enabled in both states. -/
theorem SameResult.runIn {p : Phase} {op : Op Unit} {t : State} (h : SameResult R (op s) (op u)) (hs : s.phase = p)
    (hu : u.phase = p) (hrefl : ∀ e, R e e) (hrun : runIn p op s = .next t) :
    ∃ v, runIn p op u = .next v ∧ R t v := by
  rw [Machine.runIn, if_pos hs] at hrun
  rw [Machine.runIn, if_pos hu]
  generalize op s = r, op u = q at h hrun
  cases h with
  | ok h => cases hrun; exact ⟨_, rfl, h⟩
  | error => cases hrun; exact ⟨_, rfl, hrefl _⟩

theorem Ignores.bind {x : Op α} {f : α → Op β} (hx : Ignores R x) (hf : ∀ a, Ignores R (f a)) :
    Ignores R (x >>= f) := fun s u h => (hx s u h).bind hf

theorem Ignores.pure (a : α) : Ignores R (Pure.pure a) := fun _ _ h => .ok h

theorem Ignores.update {f : State → State} (h : ∀ s u, R s u → R (f s) (f u)) : Ignores R (update f) :=
  fun s u hsu => .ok (h s u hsu)

theorem Ignores.look {f : State → α} (h : ∀ s u, R s u → f s = f u) : Ignores R (look f) :=
  fun s u hsu => .of_ok rfl (by rw [look_apply, h s u hsu]) hsu

theorem Ignores.raise {r : Reason} {i : BitVec 32}
    (h : ∀ s u, R s u → u.failureEntry r i = s.failureEntry r i) : Ignores R (raise r i : Op α) :=
  fun s u hsu => .of_error rfl (by rw [raise_apply, h s u hsu])

end

/-! ### The registers an operation may not read: all five between bodies, three of them inside one -/

/-- `u` is `s` but for HDR, BODY_REM, ACC, CNT and LEN. -/
def SameButRegs (s u : State) : Prop :=
  ∃ (h : Hdr) (rem : BitVec 24) (a : BitVec 64) (c l : BitVec 32),
    u = { s with hdr := h, bodyRem := rem, acc := a, cnt := c, len := l }

theorem SameButRegs.refl (s : State) : SameButRegs s s := ⟨_, _, _, _, _, rfl⟩

section
variable {s u : State} (h : SameButRegs s u)
include h

theorem SameButRegs.phase : u.phase = s.phase := by obtain ⟨_, _, _, _, _, rfl⟩ := h; rfl

theorem SameButRegs.inp : u.inp = s.inp := by obtain ⟨_, _, _, _, _, rfl⟩ := h; rfl

theorem SameButRegs.cursor : u.cursor = s.cursor := by obtain ⟨_, _, _, _, _, rfl⟩ := h; rfl

/-- A failure entry leaves none of the five registers as it was (R127). -/
theorem SameButRegs.failureEntry (r : Reason) (i : BitVec 32) : u.failureEntry r i = s.failureEntry r i := by
  obtain ⟨_, _, _, _, _, rfl⟩ := h; rfl

theorem SameButRegs.nextInstr : nextInstr u = nextInstr s := by rw [Machine.nextInstr, h.inp, h.cursor]; rfl

theorem SameButRegs.fetched : SameButRegs (fetched s) (fetched u) := by
  obtain ⟨hdr, rem, _, c, l, rfl⟩ := h; exact ⟨hdr, rem, _, c, l, rfl⟩
end

/-- `u` is `s` but for the working registers ACC, CNT and LEN. -/
def SameButWork (s u : State) : Prop :=
  ∃ (a : BitVec 64) (c l : BitVec 32), u = { s with acc := a, cnt := c, len := l }

theorem SameButWork.sameButRegs {s u : State} : SameButWork s u → SameButRegs s u
  | ⟨a, c, l, h⟩ => ⟨s.hdr, s.bodyRem, a, c, l, h⟩

/-! ### Inside a body: ACC, CNT and LEN -/

theorem take_ignores_work (n : Nat) : Ignores SameButWork (take n) := by
  rintro s _ ⟨a, c, l, rfl⟩
  rcases take_cases n s with ⟨hw, hn, h⟩ | ⟨hp, hr, h⟩ | ⟨hw, hn, h⟩
  · exact .of_ok h (take_ok hw hn) ⟨a, c, l, rfl⟩
  · exact .of_error h (take_overread hp hr)
  · exact .of_error h (take_truncated hw hn)

theorem setAcc_ignores_work (v : BitVec 64) : Ignores SameButWork (update (State.setAcc v)) :=
  .update fun _ _ ⟨_, c, l, h⟩ => ⟨v, c, l, by rw [h]; rfl⟩

theorem readBE_ignores_work (w : Width) : Ignores SameButWork (readBE w) :=
  (take_ignores_work _).bind fun _ => (setAcc_ignores_work _).bind fun _ => .pure _

theorem readLE_ignores_work (w : Width) : Ignores SameButWork (readLE w) :=
  (take_ignores_work _).bind fun _ => (setAcc_ignores_work _).bind fun _ => .pure _

theorem skip_ignores_work (n : Nat) : Ignores SameButWork (skip n) := (take_ignores_work n).bind fun _ => .pure _

/-- LEN is written before it is read (R101). -/
theorem stringOfLen_ignores_work (v : Nat) : Ignores SameButWork (stringOfLen v) := by
  rintro s _ ⟨a, c, l, rfl⟩
  simp only [stringOfLen, update_bind, look_bind, setLen_len]
  exact take_ignores_work _ _ _ ⟨a, c, BitVec.ofNat 32 v, rfl⟩

theorem lstrLE_ignores_work : Ignores SameButWork lstrLE :=
  (readLE_ignores_work _).bind stringOfLen_ignores_work

theorem lstrBE_ignores_work : Ignores SameButWork lstrBE :=
  (readBE_ignores_work _).bind stringOfLen_ignores_work

theorem setBlk_ignores_work (b : Body) : Ignores SameButWork (update (State.setBlk b)) :=
  .update fun _ _ ⟨a, c, l, h⟩ => ⟨a, c, l, by rw [h]; rfl⟩

theorem decCnt_ignores_work : Ignores SameButWork decCnt :=
  .update fun _ _ ⟨a, c, l, h⟩ => ⟨a, c - 1, l, by rw [h]; rfl⟩

/-- CNT counts along and steers nothing (R92, R100): the number of turns is fixed when the loop starts. -/
theorem countLoop_ignores_work {α : Type} {item : Op α} (hitem : Ignores SameButWork item) (n : Nat) :
    Ignores SameButWork (countLoop item n) := by
  induction n with
  | zero => exact .pure _
  | succ n ih =>
    exact hitem.bind fun _ => decCnt_ignores_work.bind fun _ => ih.bind fun _ => .pure _

/-- CNT is written before the loop reads it (R92, R100). -/
theorem counted_ignores_work {α : Type} {item : Op α} (hitem : Ignores SameButWork item) (v : BitVec 32)
    {f : List α → Op Unit} (hf : ∀ xs, Ignores SameButWork (f xs)) :
    Ignores SameButWork (update (State.setCnt v) >>= fun _ => look State.cnt >>= fun n =>
      countLoop item n.toNat >>= f) := by
  rintro s _ ⟨a, c, l, rfl⟩
  simp only [update_bind, look_bind, setCnt_cnt]
  exact (countLoop_ignores_work hitem _).bind hf _ _ ⟨a, v, l, rfl⟩

theorem parseStreamInfo_ignores_work : Ignores SameButWork parseStreamInfo :=
  (readBE_ignores_work _).bind fun _ => (readBE_ignores_work _).bind fun _ => (readBE_ignores_work _).bind fun _ =>
    (readBE_ignores_work _).bind fun _ => (readBE_ignores_work _).bind fun _ => (take_ignores_work _).bind fun _ =>
      setBlk_ignores_work _

theorem look_hdr_ignores_work : Ignores SameButWork (look State.hdr) := .look fun _ _ ⟨_, _, _, h⟩ => h ▸ rfl

theorem parsePadding_ignores_work : Ignores SameButWork parsePadding :=
  look_hdr_ignores_work.bind fun _ => skip_ignores_work _

theorem readPoint_ignores_work : Ignores SameButWork readPoint :=
  (readBE_ignores_work _).bind fun _ => (readBE_ignores_work _).bind fun _ => (readBE_ignores_work _).bind fun _ =>
    .pure _

theorem parseSeekTable_ignores_work : Ignores SameButWork parseSeekTable :=
  look_hdr_ignores_work.bind fun _ => counted_ignores_work readPoint_ignores_work _ fun _ => setBlk_ignores_work _

theorem parseVorbisComment_ignores_work : Ignores SameButWork parseVorbisComment :=
  lstrLE_ignores_work.bind fun _ => (readLE_ignores_work _).bind fun _ =>
    counted_ignores_work lstrLE_ignores_work _ fun _ => setBlk_ignores_work _

theorem checkCategory_ignores_work (t : Nat) : Ignores SameButWork (checkCategory t) := by
  unfold checkCategory
  split
  · exact .raise fun _ _ h => h.sameButRegs.failureEntry _ _
  · exact .pure _

theorem memWritePay_ignores_work (payload : List Byte) : Ignores SameButWork (memWritePay payload) := by
  rintro s _ ⟨a, c, l, rfl⟩
  exact .of_ok (memWritePay_apply payload s) (memWritePay_apply payload _) ⟨a, c, l, rfl⟩

/-- A string read leaves its declared length in LEN. -/
theorem stringOfLen_len {v : Nat} {s t : State} {b : List Byte} (h : stringOfLen v s = .ok (b, t)) :
    t.len = BitVec.ofNat 32 v := by
  simp only [stringOfLen, update_bind, look_bind, readBytes] at h
  rcases take_cases _ (s.setLen (BitVec.ofNat 32 v)) with ⟨-, -, k⟩ | ⟨-, -, k⟩ | ⟨-, -, k⟩ <;> rw [k] at h
  · cases h; rfl
  · cases h
  · cases h

/-- LEN read right after a string is the string's length, whatever LEN held before (R109). -/
theorem stringOfLen_bind_look_len {β : Type} (v : Nat) (f : List Byte → BitVec 32 → Op β) :
    (stringOfLen v >>= fun b => look State.len >>= f b) = stringOfLen v >>= fun b => f b (BitVec.ofNat 32 v) := by
  funext s
  cases h : stringOfLen v s with
  | error e => rw [op_bind_error h, op_bind_error h]
  | ok r => rw [op_bind_ok h, op_bind_ok h, look_bind, stringOfLen_len h]

theorem parsePicture_ignores_work : Ignores SameButWork parsePicture := by
  simp only [parsePicture, stringOfLen_bind_look_len]
  exact (readBE_ignores_work _).bind fun _ => (checkCategory_ignores_work _).bind fun _ =>
    lstrBE_ignores_work.bind fun _ => lstrBE_ignores_work.bind fun _ => (skip_ignores_work _).bind fun _ =>
      (readBE_ignores_work _).bind fun v => (stringOfLen_ignores_work v).bind fun payload =>
        (memWritePay_ignores_work payload).bind fun _ => setBlk_ignores_work _

theorem close_ignores_work : Ignores SameButWork close := by
  rintro s _ ⟨a, c, l, rfl⟩
  by_cases h : s.bodyRem = 0
  · exact .of_ok (close_ok h) (close_ok h) ⟨a, c, l, rfl⟩
  · exact .of_error (close_underread h) (close_underread h)

/-! ### Between bodies: HDR and BODY_REM too -/

/-- HDR and BODY_REM are written before the parser runs (R80, R81). -/
theorem decodeBlock_ignores_regs (t : BitVec 7) (isLast : Bool) (length : BitVec 24) {parser : Op Unit}
    (h : Ignores SameButWork parser) : Ignores SameButRegs (decodeBlock t isLast length parser) := by
  rintro s _ ⟨hdr, rem, a, c, l, rfl⟩
  simp only [decodeBlock_apply]
  exact (h.bind (fun _ => close_ignores_work) _ _ ⟨a, c, l, rfl⟩).imp fun _ _ => SameButWork.sameButRegs

theorem rejectBlock_ignores_regs (c : UnsupportedCause) (t : BitVec 7) (isLast : Bool) (length : BitVec 24) :
    Ignores SameButRegs (rejectBlock c t isLast length) := by
  rintro s _ ⟨hdr, rem, a, k, l, rfl⟩
  exact .of_error (rejectBlock_apply ..) (rejectBlock_apply ..)

/-- Outside a body the window is not looked at (R70). -/
theorem take_sameButRegs (n : Nat) {s u : State} (hp : s.phase ≠ .body) (h : SameButRegs s u) :
    SameResult SameButRegs (take n s) (take n u) := by
  obtain ⟨hdr, rem, a, c, l, rfl⟩ := h
  rcases take_cases n s with ⟨-, hn, h⟩ | ⟨hb, -, -⟩ | ⟨-, hn, h⟩
  · exact .of_ok h (take_ok (fun hb => absurd hb hp) hn) ⟨hdr, _, a, c, l, rfl⟩
  · exact absurd hb hp
  · exact .of_error h (take_truncated (fun hb => absurd hb hp) hn)

theorem sigCheck_sameButRegs {s u : State} (hp : s.phase ≠ .body) (h : SameButRegs s u) :
    SameResult SameButRegs (sigCheck s) (sigCheck u) := by
  refine SameResult.bind (take_sameButRegs 4 hp h) fun b => ?_
  split
  · exact .update fun _ _ ⟨hdr, rem, a, c, l, h⟩ => ⟨hdr, rem, a, c, l, by rw [h]; rfl⟩
  · exact .raise fun _ _ h => h.failureEntry _ _

/-- A block instruction in phase HEADER ends alike on states that differ in those registers alone. -/
theorem exec_header_sameButRegs {i : Instr} (hi : i.slot = .header) {s t u : State} (hp : s.phase = .header)
    (h : SameButRegs s u) (hs : exec i s = .next t) : ∃ v, exec i u = .next v ∧ SameButRegs t v := by
  have run {op : Op Unit} (hop : Ignores SameButRegs op) (hr : runIn .header op s = .next t) :
      ∃ v, runIn .header op u = .next v ∧ SameButRegs t v :=
    (hop s u h).runIn hp (h.phase.trans hp) .refl hr
  cases i with
  | sig => cases hi
  | streaminfo l n => exact run (decodeBlock_ignores_regs _ _ _ parseStreamInfo_ignores_work) hs
  | padding l n => exact run (decodeBlock_ignores_regs _ _ _ parsePadding_ignores_work) hs
  | seektable l n => exact run (decodeBlock_ignores_regs _ _ _ parseSeekTable_ignores_work) hs
  | vorbiscomment l n => exact run (decodeBlock_ignores_regs _ _ _ parseVorbisComment_ignores_work) hs
  | picture l n => exact run (decodeBlock_ignores_regs _ _ _ parsePicture_ignores_work) hs
  | _ l n => exact run (rejectBlock_ignores_regs _ _ _ _) hs

/-! ### The step -/

/-- The step ends alike on states that differ in HDR, BODY_REM, ACC, CNT and LEN alone: the header read overwrites ACC,
HDRDEC and DISPATCH overwrite HDR and BODY_REM, and the parsers write CNT and LEN before they read them. -/
theorem step_sameButRegs {s t u : State} (h : SameButRegs s u) (hs : step s = .next t) :
    ∃ v, step u = .next v ∧ SameButRegs t v := by
  have hwf := (step_cases hs).1
  have hwfu : u.inp.length < 2 ^ 64 := h.inp ▸ hwf
  obtain hp | hp := step_enabled hs
  · have hpu := h.phase.trans hp
    rw [step_of_sig hwf hp] at hs
    rw [step_of_sig hwfu hpu]
    exact (sigCheck_sameButRegs (by simp [hp]) h).runIn hp hpu .refl hs
  · have hpu := h.phase.trans hp
    by_cases hn : s.cursor + 4 ≤ s.inp.length
    · rw [step_of_header hwf hp hn] at hs
      rw [step_of_header hwfu hpu (by rwa [h.cursor, h.inp]), h.nextInstr]
      exact exec_header_sameButRegs (s := fetched s) (slot_decodeHeaderWord _) hp h.fetched hs
    · rw [step_of_missing_header hwf hp (by omega)] at hs
      rw [step_of_missing_header hwfu hpu (by rw [h.cursor, h.inp]; omega), h.failureEntry]
      exact ⟨t, hs, .refl t⟩

/-- Settles O46: the two states are the same but for the five registers, and so are the states after the step. -/
theorem unwrittenRegistersInfluenceNothing : Obligations.UnwrittenRegistersInfluenceNothing := by
  intro s t h rem a c l hs
  obtain ⟨v, hv, hdr, rem', a', c', l', rfl⟩ := step_sameButRegs ⟨h, rem, a, c, l, rfl⟩ hs
  exact ⟨_, hv, rfl⟩

end Sys2Proof.Machine
end

section
/-! MemRead (R31): the window it answers, byte for byte. -/

namespace Sys2Proof.Machine

/-- Byte `i` of a window is the stream's byte at that offset. -/
theorem getElem?_window (m : Memory) (addr : Nat) {n i : Nat} (hi : i < n) :
    ((m.drop addr).take n)[i]? = m.read (addr + i) := by
  rw [List.getElem?_take_of_lt hi, List.getElem?_drop, Memory.read]

theorem length_window {m : Memory} {addr n : Nat} (h : addr + n ≤ m.length) : ((m.drop addr).take n).length = n := by
  rw [List.length_take, List.length_drop]
  omega

/-- Settles O9: past the end there is no window, and a window inside the stream is answered as it stands there. -/
theorem memReadAnswersTheWindow : Obligations.MemReadAnswersTheWindow := fun m addr _ =>
  ⟨memRead_eq_none_iff.2, fun h =>
    ⟨_, memRead_eq_some_iff.2 ⟨h, rfl⟩, length_window h, fun _ => getElem?_window m addr⟩⟩

end Sys2Proof.Machine
end

section
/-! What was consumed and what was reported (R39, R41, R50): a closed block's header and body bytes are those of its
record, and they stand at the cursor. -/

namespace Sys2Proof.Machine

/-- Four bytes are the writing of their word. -/
theorem beBytes_wordOfBytes {bs : List Byte} (h : 4 ≤ bs.length) : beBytes 4 (wordOfBytes bs).toNat = bs.take 4 := by
  have hlen : (bs.take 4).length = 4 := List.length_take_of_le h
  have hlt : beNat (bs.take 4) < 2 ^ 32 := by simpa [hlen] using beNat_lt (bs.take 4)
  rw [wordOfBytes, ofNat_toNat_lt hlt]
  simpa only [hlen] using beBytes_beNat (bs.take 4)

/-- The header bytes at the cursor are those of the instruction a step runs (R52, R80). -/
theorem encode_nextInstr {s : State} (hn : s.cursor + 4 ≤ s.inp.length) :
    encode (nextInstr s) = (s.inp.drop s.cursor).take 4 := by
  rw [encode, nextInstr, encodeWord_decodeHeaderWord]
  exact beBytes_wordOfBytes (by rw [List.length_drop]; omega)

/-- The record of a block that closed is that of the instruction's header and the body bytes (R50, R62). -/
theorem Closes.block_encodes {s t : State} {i : Instr} {bs : List Byte} {body : Body} {ps : List (List Byte)}
    (h : Closes s t (instrHdr i) bs body ps) :
    Block.Encodes ⟨(instrHdr i).isLast, (instrHdr i).blockType, (instrHdr i).length, body⟩ ps (encode i ++ bs) :=
  ⟨bs, by rw [encode, instrHdr, headerWord_fields], h.length, h.typeCode.symm, h.encodes⟩

/-- What a step that closes a block consumes: the header it decoded, then the body. -/
theorem Closes.consumed {s t : State} {bs : List Byte} {body : Body} {ps : List (List Byte)}
    (hn : s.cursor + 4 ≤ s.inp.length) (h : Closes (fetched s) t (instrHdr (nextInstr s)) bs body ps) :
    t.inp.take t.cursor = s.inp.take s.cursor ++ (encode (nextInstr s) ++ bs) := by
  have hinp : t.inp = s.inp := h.inp
  have hbody : (s.inp.drop (s.cursor + 4)).take bs.length = bs := h.ahead.take_eq
  rw [h.cursor, hinp, fetched_cursor, List.take_add, List.take_add, hbody, encode_nextInstr hn, List.append_assoc]

/-- The signature check passed: nothing but the signature has been consumed (R113). -/
theorem Inv.explainedAtSignature {s : State} (h : Inv s) (hp : s.phase = .sig) (ha : s.ahead Config.signature) :
    Inv.Explained ((s.advance 4).setPhase .header) := by
  obtain ⟨hcur, hevt, hpay⟩ := h.atStart hp
  have hsigned := (h.signaturePassed hp ha).signed (.inl rfl)
  refine fun _ => ⟨ha.fits (by decide), ?_⟩
  simp only [setPhase_inp, setPhase_cursor, setPhase_evt, setPhase_pay, advance_inp, advance_cursor, advance_evt,
    advance_pay, hcur, hevt, hpay, Nat.zero_add] at hsigned ⊢
  exact hsigned ▸ .signature

/-- A block closed: the bytes it consumed are those of the record it reported (R50). -/
theorem Inv.Explained.closes {s t : State} {bs : List Byte} {body : Body} {ps : List (List Byte)}
    (h : Inv.Explained s) (hp : s.phase = .header) (hn : s.cursor + 4 ≤ s.inp.length)
    (hc : Closes (fetched s) t (instrHdr (nextInstr s)) bs body ps) : Inv.Explained t := by
  obtain ⟨-, hparsed⟩ := h (.inl hp)
  refine fun _ => ⟨hc.inside hn, ?_⟩
  rw [hc.consumed hn, hc.evt, hc.pay]
  exact hparsed.block hc.block_encodes

/-- In phase FAILED nothing has to be explained: CURSOR is undefined there (R127). -/
theorem Inv.Explained.of_failed {t : State} (hp : t.phase = .failed) : Inv.Explained t := by
  rintro (h | h) <;> simp [hp] at h

/-- Settles O49: the signature check starts the explanation, a closed block extends it by its own bytes, and a failure
entry ends it. -/
theorem stepKeepsTheStreamExplained : Obligations.StepKeepsTheStreamExplained := by
  intro s t hi he h
  obtain ⟨-, ⟨hp, ha, rfl⟩ | ⟨-, r, i, hf⟩ | ⟨-, -, hf⟩ | ⟨hp, hn, -, hb⟩⟩ := step_cases h
  · exact hi.explainedAtSignature hp ha
  · exact .of_failed hf.phase
  · exact .of_failed hf.phase
  · obtain ⟨_, ⟨⟩, ⟨bs, body, ps, hc⟩ | ⟨ps, r, i, hf, -⟩⟩ := hb
    · exact he.closes hp hn hc
    · exact .of_failed hf.phase

end Sys2Proof.Machine
end

section
/-! One step on two streams (R30, R38, R41): an operation that sees only what it consumes does the same on every stream
that has the consumed bytes where it reads them. -/

namespace Sys2Proof.Machine

/-! ### Windows of two streams -/

/-- The two streams have the same bytes from offset `lo` to `hi`. -/
def SameWindow (m n : Memory) (lo hi : Nat) : Prop :=
  (m.drop lo).take (hi - lo) = (n.drop lo).take (hi - lo)

section
variable {m n : Memory} {lo mid hi k : Nat}

theorem SameWindow.left (h : SameWindow m n lo hi) (hmid : mid ≤ hi) : SameWindow m n lo mid := by
  have := congrArg (List.take (mid - lo)) h
  simpa only [SameWindow, List.take_take, Nat.min_eq_left (Nat.sub_le_sub_right hmid lo)] using this

theorem SameWindow.right (h : SameWindow m n lo hi) (hmid : lo ≤ mid) : SameWindow m n mid hi := by
  have := congrArg (List.drop (mid - lo)) h
  simpa only [SameWindow, List.drop_take, List.drop_drop, Nat.add_sub_cancel' hmid, Nat.sub_sub] using this

/-- A window of `k` bytes, as Take asks for it. -/
theorem SameWindow.take_eq (h : SameWindow m n lo (lo + k)) : (m.drop lo).take k = (n.drop lo).take k := by
  simpa only [SameWindow, Nat.add_sub_cancel_left] using h
end

/-! ### Operations -/

/-- `s` with the stream `m` in place of its own. -/
def State.onStream (m : Memory) (s : State) : State := { s with inp := m }

/-- From `s` the operation answers, has moved forward only, and answers alike on every other stream with the bytes it
has consumed; or it raises, into FAILED. -/
inductive SeesOnlyConsumed {α : Type} (op : Op α) (s : State) : Prop where
  | ok {a : α} {t : State} : op s = .ok (a, t) → t.inp = s.inp → s.cursor ≤ t.cursor →
      (∀ m : Memory, t.cursor ≤ m.length → SameWindow m s.inp s.cursor t.cursor →
        op (s.onStream m) = .ok (a, t.onStream m)) → SeesOnlyConsumed op s
  | error {e : State} : op s = .error e → e.phase = .failed → SeesOnlyConsumed op s

/-- From no state does the operation peek ahead or go back. -/
def NoPeek {α : Type} (op : Op α) : Prop := ∀ s, SeesOnlyConsumed op s

section
variable {α β : Type}

theorem NoPeek.pure (a : α) : NoPeek (Pure.pure a) := fun _ => .ok rfl rfl (Nat.le_refl _) fun _ _ _ => rfl

/-- A register or port update that neither looks at the stream nor moves in it, which is so by definition of each of the
model's. -/
theorem NoPeek.update {f : State → State} (hinp : ∀ s, (f s).inp = s.inp := by exact fun _ => rfl)
    (hcursor : ∀ s, (f s).cursor = s.cursor := by exact fun _ => rfl)
    (hstream : ∀ (m : Memory) (s : State), f (s.onStream m) = (f s).onStream m := by exact fun _ _ => rfl) :
    NoPeek (update f) :=
  fun s => .ok rfl (hinp s) (hcursor s).ge fun m _ _ => by rw [update_apply, hstream]

/-- A register read. -/
theorem NoPeek.look {f : State → α}
    (h : ∀ (m : Memory) (s : State), f (s.onStream m) = f s := by exact fun _ _ => rfl) : NoPeek (look f) :=
  fun s => .ok rfl rfl (Nat.le_refl _) fun m _ _ => by rw [look_apply, h]

theorem NoPeek.raise (r : Reason) (i : BitVec 32) : NoPeek (raise r i : Op α) := fun _ => .error rfl rfl

/-- Sequencing: the window of the whole splits at the cursor between the two parts. -/
theorem NoPeek.bind {x : Op α} {f : α → Op β} (hx : NoPeek x) (hf : ∀ a, NoPeek (f a)) : NoPeek (x >>= f) := by
  intro s
  cases hx s with
  | error h hp => exact .error (op_bind_error h f) hp
  | @ok a t h hinp hle hsame =>
    cases hf a t with
    | error h' hp => exact .error ((op_bind_ok h f).trans h') hp
    | ok h' hinp' hle' hsame' =>
      refine .ok ((op_bind_ok h f).trans h') (hinp'.trans hinp) (hle.trans hle') fun m hm hw => ?_
      rw [op_bind_ok (hsame m (hle'.trans hm) (hw.left hle')) f]
      exact hsame' m hm (hinp ▸ hw.right hle)

theorem NoPeek.ite {p : Prop} [Decidable p] {x y : Op α} (hx : NoPeek x) (hy : NoPeek y) :
    NoPeek (if p then x else y) := by
  split
  · exact hx
  · exact hy
end

/-! ### The reader and the operand forms -/

/-- Take asks for its `n` bytes and for no other, and N bounds it from above only (R70). -/
theorem take_noPeek (n : Nat) : NoPeek (take n) := by
  intro s
  rcases take_cases n s with ⟨hw, -, h⟩ | ⟨-, -, h⟩ | ⟨-, -, h⟩
  · refine .ok h rfl (Nat.le_add_right _ _) fun m hm hsame => ?_
    rw [advance_cursor] at hm hsame
    rw [take_ok (s := s.onStream m) hw hm, ← hsame.take_eq]
    rfl
  · exact .error h rfl
  · exact .error h rfl

theorem readBE_noPeek (w : Width) : NoPeek (readBE w) :=
  (take_noPeek _).bind fun _ => NoPeek.bind .update fun _ => .pure _

theorem readLE_noPeek (w : Width) : NoPeek (readLE w) :=
  (take_noPeek _).bind fun _ => NoPeek.bind .update fun _ => .pure _

theorem skip_noPeek (n : Nat) : NoPeek (skip n) := (take_noPeek n).bind fun _ => .pure _

theorem stringOfLen_noPeek (v : Nat) : NoPeek (stringOfLen v) :=
  NoPeek.bind .update fun _ => NoPeek.bind .look fun _ => take_noPeek _

theorem lstrLE_noPeek : NoPeek lstrLE := (readLE_noPeek _).bind stringOfLen_noPeek

theorem lstrBE_noPeek : NoPeek lstrBE := (readBE_noPeek _).bind stringOfLen_noPeek

theorem countLoop_noPeek {α : Type} {item : Op α} (hitem : NoPeek item) (n : Nat) : NoPeek (countLoop item n) := by
  induction n with
  | zero => exact .pure _
  | succ n ih =>
    exact hitem.bind fun _ => NoPeek.bind .update fun _ => ih.bind fun _ => .pure _

/-- The loop over CNT that ends a SEEKTABLE and a VORBISCOMMENT (R92, R100). -/
theorem counted_noPeek {α : Type} {item : Op α} (hitem : NoPeek item) (v : BitVec 32) (rec : List α → Body) :
    NoPeek (update (State.setCnt v) >>= fun _ => look State.cnt >>= fun n =>
      countLoop item n.toNat >>= fun xs => update (State.setBlk (rec xs))) :=
  NoPeek.bind .update fun _ => NoPeek.bind .look fun _ => (countLoop_noPeek hitem _).bind fun _ => .update

/-! ### The instructions -/

theorem parseStreamInfo_noPeek : NoPeek parseStreamInfo :=
  (readBE_noPeek _).bind fun _ => (readBE_noPeek _).bind fun _ => (readBE_noPeek _).bind fun _ =>
    (readBE_noPeek _).bind fun _ => (readBE_noPeek _).bind fun _ => (take_noPeek _).bind fun _ => .update

theorem parsePadding_noPeek : NoPeek parsePadding := NoPeek.bind .look fun _ => skip_noPeek _

theorem readPoint_noPeek : NoPeek readPoint :=
  (readBE_noPeek _).bind fun _ => (readBE_noPeek _).bind fun _ => (readBE_noPeek _).bind fun _ => .pure _

theorem parseSeekTable_noPeek : NoPeek parseSeekTable := NoPeek.bind .look fun _ => counted_noPeek readPoint_noPeek _ _

theorem parseVorbisComment_noPeek : NoPeek parseVorbisComment :=
  lstrLE_noPeek.bind fun _ => (readLE_noPeek _).bind fun _ => counted_noPeek lstrLE_noPeek _ _

theorem checkCategory_noPeek (t : Nat) : NoPeek (checkCategory t) := .ite (.raise _ _) (.pure _)

/-- The sink is told the payload and nothing else of the stream (R48). -/
theorem memWritePay_noPeek (payload : List Byte) : NoPeek (memWritePay payload) :=
  NoPeek.bind .update fun _ => NoPeek.bind .look fun _ =>
    NoPeek.bind .update fun _ => NoPeek.bind .update fun _ => .pure _

theorem parsePicture_noPeek : NoPeek parsePicture :=
  (readBE_noPeek _).bind fun _ => (checkCategory_noPeek _).bind fun _ => lstrBE_noPeek.bind fun _ =>
    lstrBE_noPeek.bind fun _ => (skip_noPeek _).bind fun _ => (readBE_noPeek _).bind fun v =>
      (stringOfLen_noPeek v).bind fun payload => NoPeek.bind .look fun _ =>
        (memWritePay_noPeek payload).bind fun _ => .update

/-- CLOSE looks at BODY_REM, not at the stream (R86). -/
theorem close_noPeek : NoPeek close := by
  intro s
  by_cases h : s.bodyRem = 0
  · exact .ok (close_ok h) rfl (Nat.le_refl _) fun m _ _ => close_ok (s := s.onStream m) h
  · exact .error (close_underread h) rfl

theorem decodeBlock_noPeek (t : BitVec 7) (isLast : Bool) (length : BitVec 24) {parser : Op Unit}
    (h : NoPeek parser) : NoPeek (decodeBlock t isLast length parser) :=
  NoPeek.bind .update fun _ => NoPeek.bind .update fun _ => h.bind fun _ => close_noPeek

theorem rejectBlock_noPeek (c : UnsupportedCause) (t : BitVec 7) (isLast : Bool) (length : BitVec 24) :
    NoPeek (rejectBlock c t isLast length) :=
  NoPeek.bind .update fun _ => .raise _ _

theorem sigCheck_noPeek : NoPeek sigCheck :=
  (take_noPeek 4).bind fun _ => .ite .update (.raise _ _)

/-! ### The step -/

/-- An operation that did not fail, as one whole step on another stream. -/
theorem NoPeek.runIn {p : Phase} {op : Op Unit} (h : NoPeek op) {s t : State} {m : Memory}
    (hs : runIn p op s = .next t) (ht : t.phase ≠ .failed) (hm : t.cursor ≤ m.length)
    (hw : SameWindow m s.inp s.cursor t.cursor) : runIn p op (s.onStream m) = .next (t.onStream m) := by
  by_cases hp : s.phase = p
  · have hpm : (s.onStream m).phase = p := hp
    cases h s with
    | error ho hf =>
      cases (runIn_error hp ho).symm.trans hs
      exact absurd hf ht
    | ok ho _ _ hsame =>
      cases (runIn_ok hp ho).symm.trans hs
      exact runIn_ok hpm (hsame m hm hw)
  · rw [runIn_disabled op hp] at hs
    cases hs

/-- Whatever the instruction, on another stream with the bytes it consumed it does the same. -/
theorem exec_onStream {i : Instr} {s t : State} {m : Memory} (hs : exec i s = .next t) (ht : t.phase ≠ .failed)
    (hm : t.cursor ≤ m.length) (hw : SameWindow m s.inp s.cursor t.cursor) :
    exec i (s.onStream m) = .next (t.onStream m) := by
  cases i with
  | sig => exact sigCheck_noPeek.runIn hs ht hm hw
  | streaminfo l n => exact (decodeBlock_noPeek _ _ _ parseStreamInfo_noPeek).runIn hs ht hm hw
  | padding l n => exact (decodeBlock_noPeek _ _ _ parsePadding_noPeek).runIn hs ht hm hw
  | seektable l n => exact (decodeBlock_noPeek _ _ _ parseSeekTable_noPeek).runIn hs ht hm hw
  | vorbiscomment l n => exact (decodeBlock_noPeek _ _ _ parseVorbisComment_noPeek).runIn hs ht hm hw
  | picture l n => exact (decodeBlock_noPeek _ _ _ parsePicture_noPeek).runIn hs ht hm hw
  | _ l n => exact (rejectBlock_noPeek _ _ _ _).runIn hs ht hm hw

section
variable {s : State} {m : Memory} (h : SameWindow m s.inp s.cursor (s.cursor + 4))
include h

/-- The four header bytes are all a step sees before it dispatches (R80). -/
theorem SameWindow.word_eq : wordOfBytes (m.drop s.cursor) = wordOfBytes (s.inp.drop s.cursor) := by
  rw [wordOfBytes, wordOfBytes, h.take_eq]

theorem SameWindow.nextInstr_eq : nextInstr (s.onStream m) = nextInstr s := congrArg decodeHeaderWord h.word_eq

theorem SameWindow.fetched_eq : fetched (s.onStream m) = (fetched s).onStream m :=
  congrArg (fun w => { s with inp := m, cursor := s.cursor + 4, acc := BitVec.ofNat 64 w.toNat }) h.word_eq
end

/-- A step that does not fail, on another stream with the bytes it consumed: the header read, then
the instruction. -/
theorem step_onStream {s t : State} {m : Memory} (hs : step s = .next t) (ht : t.phase ≠ .failed)
    (hlen : m.length < 2 ^ 64) (hm : t.cursor ≤ m.length) (hw : SameWindow m s.inp s.cursor t.cursor) :
    step (s.onStream m) = .next (t.onStream m) := by
  have hwf := (step_cases hs).1
  obtain ⟨-, hmoves, -⟩ := stepsMoveForward s t hs
  have hle := (hmoves ht).1
  obtain hp | hp := step_enabled hs
  · rw [step_of_sig hwf hp] at hs
    rw [step_of_sig (s := s.onStream m) hlen hp]
    exact exec_onStream hs ht hm hw
  · by_cases hn : s.cursor + 4 ≤ s.inp.length
    · have hhdr : SameWindow m s.inp s.cursor (s.cursor + 4) := hw.left hle
      rw [step_of_header hwf hp hn] at hs
      rw [step_of_header (s := s.onStream m) hlen hp (hle.trans hm), hhdr.nextInstr_eq, hhdr.fetched_eq]
      exact exec_onStream hs ht hm (hw.right (Nat.le_add_right _ _))
    · rw [step_of_missing_header hwf hp (by omega)] at hs
      cases hs
      exact absurd rfl ht

/-- Settles O45: a step that does not fail moves forward on an unchanged stream, and no operation it is made of sees a
byte outside those it consumes. -/
theorem stepSeesOnlyWhatItConsumes : Obligations.StepSeesOnlyWhatItConsumes := by
  intro s t m hs ht hlen hm hw
  obtain ⟨hinp, hmoves, -⟩ := stepsMoveForward s t hs
  have hle := (hmoves ht).1
  exact ⟨hinp, by omega, step_onStream hs ht hlen hm hw⟩

end Sys2Proof.Machine
end


section
/-! The decoder and the encoder (R50 to R55): what the decoder answers in each slot, and that its opcode map and the
encoder's are inverse. -/

namespace Sys2Proof

/-! ### The header fields of a word (R53) -/

theorem hdrIsLast_eq_decide (w : BitVec 32) : hdrIsLast w = decide (w.toNat / 2 ^ 31 % 2 = 1) := by
  rw [hdrIsLast, BitVec.getLsbD, Nat.testBit_eq_decide_div_mod_eq]

theorem toNat_hdrBlockType (w : BitVec 32) : (hdrBlockType w).toNat = w.toNat / 2 ^ 24 % 2 ^ 7 := by
  rw [hdrBlockType, BitVec.extractLsb'_toNat, Nat.shiftRight_eq_div_pow]

theorem toNat_hdrLength (w : BitVec 32) : (hdrLength w).toNat = w.toNat % 2 ^ 24 := by
  rw [hdrLength, BitVec.extractLsb'_toNat, Nat.shiftRight_zero]

/-- The word of four bytes, the first of them most significant. -/
theorem toNat_wordOfBytes_cons (b0 b1 b2 b3 : Byte) (rest : List Byte) :
    (wordOfBytes (b0 :: b1 :: b2 :: b3 :: rest)).toNat =
      b0.toNat * 2 ^ 24 + b1.toNat * 2 ^ 16 + b2.toNat * 2 ^ 8 + b3.toNat := by
  have hlt : beNat [b0, b1, b2, b3] < 2 ^ 32 := by simpa using beNat_lt [b0, b1, b2, b3]
  have hsum : beNat [b0, b1, b2, b3] = b0.toNat * 2 ^ 24 + b1.toNat * 2 ^ 16 + b2.toNat * 2 ^ 8 + b3.toNat := by
    simp [beNat, Nat.add_assoc]
  exact (Machine.ofNat_toNat_lt hlt).trans hsum

/-- Settles O1: the word's value is the sum over its bytes, and each field is a quotient and a remainder of that sum. -/
theorem headerFieldsFollowTheirBits : Obligations.HeaderFieldsFollowTheirBits := by
  refine ⟨fun b0 b1 b2 b3 rest => ?_, by decide⟩
  have hw := toNat_wordOfBytes_cons b0 b1 b2 b3 rest
  have h0 := b0.isLt
  have h1 := b1.isLt
  have h2 := b2.isLt
  have h3 := b3.isLt
  refine ⟨hw, rfl, ?_, toNat_hdrBlockType _, ?_, toNat_hdrLength _, ?_⟩
  · rw [hdrIsLast_eq_decide, hw, BitVec.getLsbD, Nat.testBit_eq_decide_div_mod_eq]
    exact decide_eq_decide.2 (by omega)
  · rw [toNat_hdrBlockType, hw]
    omega
  · rw [toNat_hdrLength, hw]
    omega

/-! ### The opcode map, both ways (R54, R65) -/

/-- The header triple of a word is unique. -/
theorem headerWord_inj {a b : Bool} {t u : BitVec 7} {m n : BitVec 24} (h : headerWord a t m = headerWord b u n) :
    t = u ∧ a = b ∧ m = n :=
  ⟨by simpa using congrArg hdrBlockType h, by simpa using congrArg hdrIsLast h, by simpa using congrArg hdrLength h⟩

/-- Every instruction but SIG is decoded from its own word, code by code. -/
theorem decodeHeaderWord_encodeWord {i : Instr} (hi : i.slot = .header) : decodeHeaderWord (encodeWord i) = i := by
  cases i with
  | sig => cases hi
  | _ isLast length => exact decodeHeaderWord_headerWord isLast _ length

theorem eq_sig_or_slot_eq_header (i : Instr) : i = .sig ∨ i.slot = .header := by
  cases i with
  | sig => exact .inl rfl
  | _ => exact .inr rfl

/-- Settles O20: two codes with one instruction have one word, hence one triple; and every header instruction is the
map's at the fields of its own word. -/
theorem opcodeMapIsOneToOne : Obligations.OpcodeMapIsOneToOne := by
  refine ⟨fun t u a b m n h => ?_, fun i hi => ?_, fun a m => ⟨rfl, rfl, rfl, rfl, rfl, rfl, rfl, rfl, rfl, rfl⟩⟩
  · have hw := congrArg encodeWord h
    rw [encodeWord_instrOfCode, encodeWord_instrOfCode] at hw
    exact headerWord_inj hw
  · have hslot := (eq_sig_or_slot_eq_header i).resolve_left hi
    exact ⟨_, _, _, (decodeHeaderWord_encodeWord hslot).symm⟩

/-! ### What the decoder answers (R51, R52) -/

section
variable {bs : List Byte}

theorem decode_of_short (h : bs.length < 4) (c : Slot) : decode c bs = .error (.tooShort bs.length) := if_pos h

theorem decode_header (h : 4 ≤ bs.length) :
    decode .header bs = .ok (decodeHeaderWord (wordOfBytes bs), bs.drop 4) := if_neg (Nat.not_lt.2 h)

theorem decode_signature (h : 4 ≤ bs.length) :
    decode .signature bs = if bs.take 4 = Config.signature then .ok (.sig, bs.drop 4)
      else .error (.badSignature (wordOfBytes bs)) := if_neg (Nat.not_lt.2 h)
end

/-- Settles O4: the decoder's three answers that are not the signature's. -/
theorem decoderRefusesByName : Obligations.DecoderRefusesByName := fun _ =>
  ⟨decode_of_short, fun h => ⟨_, decode_header h⟩, fun h hne => by rw [decode_signature h, if_neg hne]⟩

/-! ### Decoding and encoding are inverse (R50) -/

theorem length_encode (i : Instr) : (encode i).length = 4 := length_beBytes 4 _

theorem encode_sig : encode .sig = Config.signature := by decide

theorem wordOfBytes_encode_append (i : Instr) (rest : List Byte) : wordOfBytes (encode i ++ rest) = encodeWord i := by
  rw [wordOfBytes_append (length_encode i), encode, wordOfBytes_beBytes]

theorem drop_encode_append (i : Instr) (rest : List Byte) : (encode i ++ rest).drop 4 = rest :=
  List.drop_left' (length_encode i)

/-- The bytes of a header word's instruction are the word's. -/
theorem encode_decodeHeaderWord {bs : List Byte} (h : 4 ≤ bs.length) :
    encode (decodeHeaderWord (wordOfBytes bs)) = bs.take 4 := by
  rw [encode, encodeWord_decodeHeaderWord, Machine.beBytes_wordOfBytes h]

/-- Settles O2: the signature by its bytes, a header instruction by its word. -/
theorem decodeOfEncodeIsTheInstruction : Obligations.DecodeOfEncodeIsTheInstruction := by
  intro c i rest hwf
  obtain rfl : i.slot = c := of_decide_eq_true hwf
  have hlen : 4 ≤ (encode i ++ rest).length := by
    rw [List.length_append, length_encode]
    exact Nat.le_add_right _ _
  obtain rfl | hi := eq_sig_or_slot_eq_header i
  · have hsig : (encode .sig ++ rest).take 4 = Config.signature :=
      (List.take_left' (length_encode _)).trans encode_sig
    change decode .signature _ = _
    rw [decode_signature hlen, if_pos hsig, drop_encode_append]
  · rw [hi, decode_header hlen, wordOfBytes_encode_append, decodeHeaderWord_encodeWord hi, drop_encode_append]

/-- Settles O3: whatever decodes has four bytes at its head, which are the signature or a header word. -/
theorem encodeOfDecodeIsTheWord : Obligations.EncodeOfDecodeIsTheWord := by
  intro c bs i rest h
  by_cases hlen : bs.length < 4
  · rw [decode_of_short hlen] at h
    cases h
  rw [not_lt] at hlen
  cases c with
  | signature =>
    rw [decode_signature hlen] at h
    by_cases hsig : bs.take 4 = Config.signature
    · rw [if_pos hsig] at h
      cases h
      exact ⟨by rw [encode_sig, ← hsig, List.take_append_drop], rfl⟩
    · rw [if_neg hsig] at h
      cases h
  | header =>
    rw [decode_header hlen] at h
    cases h
    exact ⟨by rw [encode_decodeHeaderWord hlen, List.take_append_drop], decide_eq_true (slot_decodeHeaderWord _)⟩

open Laws.OpcodeMap in
/-- Settles O5: each of the words is the encoding of what it stands for, and the opcode map's laws decode it. -/
theorem writtenOutWordsDecode : Obligations.WrittenOutWordsDecode :=
  ⟨sig, streaminfo false 34, padding true 0, application false 4, seektable false 36, vorbiscomment true 40,
    cuesheet true 0, picture false 256, reserved7 false 0, reserved126 true 16777215, invalid true 16777215⟩

end Sys2Proof
end

section
/-! The picture categories (R63): a name for each of the codes 0 to 20. -/

namespace Sys2Proof.Machine

theorem length_pictureCategories : Config.pictureCategories.length = 21 := rfl

theorem isSome_categoryName (t : Nat) : (categoryName t).isSome ↔ t ≤ 20 := by
  rw [categoryName, isSome_getElem?, length_pictureCategories, Nat.lt_succ_iff]

/-- Settles O32: the codes with a name are the indices of a list of 21. -/
theorem categoriesAreTheTwentyOneCodes : Obligations.CategoriesAreTheTwentyOneCodes :=
  ⟨isSome_categoryName, rfl, rfl⟩

end Sys2Proof.Machine
end

section
/-! The Bit-Width Reader (R70 to R74): when Take and SKIP answer, and what READ_BE and READ_LE make of the bytes. -/

namespace Sys2Proof

/-- The sum of R71. -/
theorem beNat_eq_sum (b : List Byte) :
    beNat b = ∑ i ∈ Finset.range b.length, (b.getD i 0).toNat * 256 ^ (b.length - 1 - i) := by
  induction b with
  | nil => rfl
  | cons x xs ih =>
    rw [beNat, ih, List.length_cons, Finset.sum_range_succ', Nat.add_comm]
    simp [Nat.sub_sub, Nat.add_comm 1]

/-- The sum of R72. -/
theorem leNat_eq_sum (b : List Byte) : leNat b = ∑ i ∈ Finset.range b.length, (b.getD i 0).toNat * 256 ^ i := by
  induction b with
  | nil => rfl
  | cons x xs ih =>
    rw [leNat, ih, List.length_cons, Finset.sum_range_succ', Nat.add_comm, Finset.mul_sum]
    simp [Nat.pow_succ', Nat.mul_left_comm]

end Sys2Proof

namespace Sys2Proof.Machine

/-! ### Sequencing and Take, read backward -/

theorem op_bind_eq_ok_iff {α β : Type} {x : Op α} {f : α → Op β} {s u : State} {b : β} :
    (x >>= f) s = .ok (b, u) ↔ ∃ a t, x s = .ok (a, t) ∧ f a t = .ok (b, u) := by
  rw [op_bind]
  cases x s with
  | error e => simp
  | ok r => obtain ⟨a, t⟩ := r; simp

theorem take_eq_ok_iff {n : Nat} {s t : State} {b : List Byte} :
    take n s = .ok (b, t) ↔ (s.phase = .body → n ≤ s.bodyRem.toNat) ∧ s.cursor + n ≤ s.inp.length ∧
      b = (s.inp.drop s.cursor).take n ∧ t = s.advance n := by
  constructor
  · intro h
    rcases take_cases n s with ⟨hw, hn, k⟩ | ⟨-, -, k⟩ | ⟨-, -, k⟩ <;> rw [k] at h <;> cases h
    exact ⟨hw, hn, rfl, rfl⟩
  · rintro ⟨hw, hn, rfl, rfl⟩
    exact take_ok hw hn

theorem length_of_take {n : Nat} {s t : State} {b : List Byte} (h : take n s = .ok (b, t)) : b.length = n := by
  obtain ⟨-, hn, rfl, -⟩ := take_eq_ok_iff.1 h
  exact length_window hn

/-- The subtraction from BODY_REM does not wrap when the window holds the bytes. -/
theorem toNat_advance_bodyRem {s : State} {n : Nat} (hw : s.phase = .body → n ≤ s.bodyRem.toNat) :
    (s.advance n).bodyRem.toNat = if s.phase = .body then s.bodyRem.toNat - n else s.bodyRem.toNat := by
  by_cases hp : s.phase = .body
  · rw [if_pos hp, advance_eq_moved, moved_bodyRem hp (hw hp)]
  · rw [if_neg hp, advance_bodyRem, if_neg hp]

/-- Taking nothing moves nothing. -/
theorem advance_zero (s : State) : s.advance 0 = s := by rw [advance_eq_moved, moved_zero]

theorem failedFrom_failureEntry (s : State) (r : Reason) (i : BitVec 32) : FailedFrom s (s.failureEntry r i) r i :=
  ⟨rfl, rfl, rfl, rfl, rfl, rfl, rfl⟩

/-- Settles O10: the three cases of Take, the window before the stream. -/
theorem takeChecksWindowThenStream : Obligations.TakeChecksWindowThenStream := by
  refine ⟨⟨rfl, rfl, rfl⟩, fun n s _ => ⟨fun hp h => ?_, fun hw h => ?_, fun hw h => ?_⟩⟩
  · exact ⟨_, take_overread hp h, failedFrom_failureEntry s _ _⟩
  · exact ⟨_, take_truncated hw h, failedFrom_failureEntry s _ _⟩
  · exact ⟨_, _, take_ok hw h, length_window h, fun i => getElem?_window s.inp s.cursor, rfl,
      toNat_advance_bodyRem hw⟩

/-! ### READ_BE and READ_LE -/

theorem readBE_of_take {w : Width} {s t : State} {b : List Byte} (h : take w.bytes s = .ok (b, t)) :
    readBE w s = .ok (beNat b, t.setAcc (BitVec.ofNat 64 (beNat b))) := op_bind_ok h _

theorem readLE_of_take {w : Width} {s t : State} {b : List Byte} (h : take w.bytes s = .ok (b, t)) :
    readLE w s = .ok (leNat b, t.setAcc (BitVec.ofNat 64 (leNat b))) := op_bind_ok h _

/-- ACC has room for the widest value (R75). -/
theorem Width.pow_bytes_le (w : Width) : 256 ^ w.bytes ≤ 2 ^ 64 := by cases w <;> decide

/-- A value of the width's bytes is within its bits, and ACC holds it without loss (R15). -/
theorem Width.value_fits {w : Width} {v : Nat} (h : v < 256 ^ w.bytes) :
    v ≤ 2 ^ (8 * w.bytes) - 1 ∧ (BitVec.ofNat 64 v).toNat = v :=
  ⟨Nat.le_sub_one_of_lt (by rwa [Nat.pow_mul]), ofNat_toNat_lt (h.trans_le w.pow_bytes_le)⟩

/-- Settles O11: the value of the bytes taken is the sum of R71, and is below 256^k. -/
theorem readBEAnswersTheBigEndianValue : Obligations.ReadBEAnswersTheBigEndianValue := by
  refine fun w s => ⟨fun b t h => ?_, fun e h => op_bind_error h _⟩
  have hv := beNat_lt b
  have hr := readBE_of_take h
  rw [beNat_eq_sum, length_of_take h] at hv hr
  exact ⟨hr, Width.value_fits hv⟩

/-- Settles O12: the value of the bytes taken is the sum of R72, and is below 256^k. -/
theorem readLEAnswersTheLittleEndianValue : Obligations.ReadLEAnswersTheLittleEndianValue := by
  refine fun w s => ⟨fun b t h => ?_, fun e h => op_bind_error h _⟩
  have hv := leNat_lt b
  have hr := readLE_of_take h
  rw [leNat_eq_sum, length_of_take h] at hv hr
  exact ⟨hr, Width.value_fits hv⟩

/-! ### SKIP -/

/-- SKIP answers under Take's two checks, and then only moves (R74): the state after it names no byte of the stream. -/
theorem skip_eq_ok_iff {n : Nat} {s t : State} :
    skip n s = .ok ((), t) ↔
      (s.phase = .body → n ≤ s.bodyRem.toNat) ∧ s.cursor + n ≤ s.inp.length ∧ t = s.advance n := by
  rw [skip, op_bind_eq_ok_iff]
  simp [take_eq_ok_iff]

/-- Settles O13: Take's cases with the bytes dropped; whether SKIP answers, and with what, depends on the stream's length
alone. -/
theorem skipConsumesAndDrops : Obligations.SkipConsumesAndDrops := by
  refine fun n s => ⟨fun b t h => ?_, fun e h => op_bind_error h _, fun hw h => ?_, fun h => ?_, fun m t hm h => ?_⟩
  · obtain ⟨-, -, -, rfl⟩ := take_eq_ok_iff.1 h
    exact ⟨op_bind_ok h _, rfl, rfl⟩
  · exact ⟨_, op_bind_error (take_truncated hw h) _, failedFrom_failureEntry s _ _⟩
  · exact skip_eq_ok_iff.2 ⟨fun _ => Nat.zero_le _, h, (advance_zero s).symm⟩
  · obtain ⟨hw, hn, rfl⟩ := skip_eq_ok_iff.1 h
    exact skip_eq_ok_iff.2 ⟨hw, hm.symm ▸ hn, rfl⟩

end Sys2Proof.Machine
end

section
/-! What a closed block leaves alone (R15, R16, R22, R77): a view of the state that no part of a parser writes is the
same after the block. -/

namespace Sys2Proof.Machine

/-- Whenever the operation answers, the view `f` of the state is as it was. -/
def Keeps {α β : Type} (f : State → β) (op : Op α) : Prop := ∀ s a t, op s = .ok (a, t) → f t = f s

/-- Whenever the operation answers, the view `f` of the state is `v`, whatever it was. -/
def Sets {α β : Type} (f : State → β) (v : β) (op : Op α) : Prop := ∀ s a t, op s = .ok (a, t) → f t = v

section
variable {α β γ : Type} {f : State → γ}

/-! ### Sequencing -/

theorem Keeps.pure (a : α) : Keeps f (Pure.pure a) := fun _ _ _ h => by cases h; rfl

theorem Keeps.update {g : State → State} (h : ∀ s, f (g s) = f s := by exact fun _ => rfl) : Keeps f (update g) :=
  fun s _ _ hs => by cases hs; exact h s

theorem Keeps.look {g : State → α} : Keeps f (look g) := fun _ _ _ h => by cases h; rfl

theorem Keeps.raise {r : Reason} {i : BitVec 32} : Keeps f (raise r i : Op α) := fun _ _ _ h => by cases h

theorem Keeps.bind {x : Op α} {g : α → Op β} (hx : Keeps f x) (hg : ∀ a, Keeps f (g a)) : Keeps f (x >>= g) := by
  intro s b u h
  obtain ⟨a, t, hxs, hgt⟩ := op_bind_eq_ok_iff.1 h
  exact (hg a t b u hgt).trans (hx s a t hxs)

/-- The second part writes the view. -/
theorem Sets.bind_right {x : Op α} {g : α → Op β} {v : γ} (hg : ∀ a, Sets f v (g a)) : Sets f v (x >>= g) := by
  intro s b u h
  obtain ⟨a, t, -, hgt⟩ := op_bind_eq_ok_iff.1 h
  exact hg a t b u hgt

/-- The first part writes the view, the second keeps it. -/
theorem Sets.bind_left {x : Op α} {g : α → Op β} {v : γ} (hx : Sets f v x) (hg : ∀ a, Keeps f (g a)) :
    Sets f v (x >>= g) := by
  intro s b u h
  obtain ⟨a, t, hxs, hgt⟩ := op_bind_eq_ok_iff.1 h
  exact (hg a t b u hgt).trans (hx s a t hxs)

/-! ### The reader and the operand forms, for a view of none of the registers they write -/

theorem take_keeps (n : Nat) (hadvance : ∀ s, f (s.advance n) = f s := by exact fun _ => rfl) : Keeps f (take n) := by
  intro s b t h
  obtain ⟨-, -, -, rfl⟩ := take_eq_ok_iff.1 h
  exact hadvance s

theorem skip_keeps (n : Nat) (hadvance : ∀ s, f (s.advance n) = f s := by exact fun _ => rfl) : Keeps f (skip n) :=
  (take_keeps n hadvance).bind fun _ => .pure _

theorem readBE_keeps (w : Width) (hadvance : ∀ n s, f (s.advance n) = f s := by exact fun _ _ => rfl)
    (hacc : ∀ v s, f (s.setAcc v) = f s := by exact fun _ _ => rfl) : Keeps f (readBE w) :=
  (take_keeps _ (hadvance _)).bind fun _ => (Keeps.update (hacc _)).bind fun _ => .pure _

theorem readLE_keeps (w : Width) (hadvance : ∀ n s, f (s.advance n) = f s := by exact fun _ _ => rfl)
    (hacc : ∀ v s, f (s.setAcc v) = f s := by exact fun _ _ => rfl) : Keeps f (readLE w) :=
  (take_keeps _ (hadvance _)).bind fun _ => (Keeps.update (hacc _)).bind fun _ => .pure _

theorem stringOfLen_keeps (v : Nat) (hadvance : ∀ n s, f (s.advance n) = f s := by exact fun _ _ => rfl)
    (hlen : ∀ v s, f (s.setLen v) = f s := by exact fun _ _ => rfl) : Keeps f (stringOfLen v) :=
  (Keeps.update (hlen _)).bind fun _ => Keeps.look.bind fun _ => take_keeps _ (hadvance _)

/-- The counted loop writes CNT besides what its items write (R92, R100). -/
theorem countLoop_keeps {item : Op α} (hitem : Keeps f item) (n : Nat)
    (hcnt : ∀ v s, f (s.setCnt v) = f s := by exact fun _ _ => rfl) : Keeps f (countLoop item n) := by
  induction n with
  | zero => exact .pure _
  | succ n ih => exact hitem.bind fun _ => (Keeps.update fun s => hcnt _ s).bind fun _ => ih.bind fun _ => .pure _

/-! ### The block around a parser -/

theorem close_keeps (hclose : ∀ b p s, f (((State.emit b s).setBlk .empty).setPhase p) = f s :=
      by exact fun _ _ _ => rfl) : Keeps f close := by
  intro s _ t h
  by_cases hz : s.bodyRem = 0
  · cases (close_ok hz).symm.trans h
    exact hclose _ _ s
  · cases (close_underread hz).symm.trans h

end

/-! ### The parsers -/

/-- What the payload handoff alone writes: PAY, the sink, and the model's draw counter (R48, log 7). -/
def State.sinkSide (s : State) : List (List Byte) × Bool × Nat := (s.pay, s.sinkHeld, s.draws)

theorem parseStreamInfo_keeps : Keeps (fun s => (s.cnt, s.len, s.sinkSide)) parseStreamInfo :=
  (readBE_keeps _).bind fun _ => (readBE_keeps _).bind fun _ => (readBE_keeps _).bind fun _ =>
    (readBE_keeps _).bind fun _ => (readBE_keeps _).bind fun _ => (take_keeps _).bind fun _ => .update

theorem parsePadding_keeps : Keeps (fun s => (s.cnt, s.len, s.acc, s.sinkSide)) parsePadding :=
  Keeps.look.bind fun _ => skip_keeps _

theorem readPoint_keeps : Keeps (fun s => (s.len, s.sinkSide)) readPoint :=
  (readBE_keeps _).bind fun _ => (readBE_keeps _).bind fun _ => (readBE_keeps _).bind fun _ => .pure _

theorem parseSeekTable_keeps : Keeps (fun s => (s.len, s.sinkSide)) parseSeekTable :=
  Keeps.look.bind fun _ => Keeps.bind .update fun _ => Keeps.look.bind fun _ =>
    (countLoop_keeps readPoint_keeps _).bind fun _ => .update

theorem lstrLE_keeps : Keeps State.sinkSide lstrLE := (readLE_keeps _).bind fun _ => stringOfLen_keeps _

theorem parseVorbisComment_keeps : Keeps State.sinkSide parseVorbisComment :=
  lstrLE_keeps.bind fun _ => (readLE_keeps _).bind fun _ => Keeps.bind .update fun _ => Keeps.look.bind fun _ =>
    (countLoop_keeps lstrLE_keeps _).bind fun _ => .update

theorem lstrBE_keeps : Keeps State.cnt lstrBE := (readBE_keeps _).bind fun _ => stringOfLen_keeps _

theorem checkCategory_keeps (c : Nat) : Keeps State.cnt (checkCategory c) := by
  unfold checkCategory
  split
  · exact .raise
  · exact .pure _

theorem memWritePay_keeps (payload : List Byte) : Keeps State.cnt (memWritePay payload) :=
  Keeps.bind .update fun _ => Keeps.look.bind fun _ => Keeps.bind .update fun _ => Keeps.bind .update fun _ => .pure _

theorem parsePicture_keeps : Keeps State.cnt parsePicture :=
  (readBE_keeps _).bind fun _ => (checkCategory_keeps _).bind fun _ => lstrBE_keeps.bind fun _ =>
    lstrBE_keeps.bind fun _ => (skip_keeps _).bind fun _ => (readBE_keeps _).bind fun _ =>
      (stringOfLen_keeps _).bind fun payload => Keeps.look.bind fun _ => (memWritePay_keeps payload).bind fun _ => .update

/-- The handoff releases the sink (R48). -/
theorem memWritePay_sets_sinkHeld (payload : List Byte) : Sets State.sinkHeld false (memWritePay payload) := by
  intro s r t h
  cases (memWritePay_apply payload s).symm.trans h
  rfl

theorem parsePicture_sets_sinkHeld : Sets State.sinkHeld false parsePicture :=
  .bind_right fun _ => .bind_right fun _ => .bind_right fun _ => .bind_right fun _ => .bind_right fun _ =>
    .bind_right fun _ => .bind_right fun payload => .bind_right fun _ =>
      (memWritePay_sets_sinkHeld payload).bind_left fun _ => .update

/-! ### Blocks that close -/

/-- A block that did not fail was enabled and answered. -/
theorem decodeBlock_of_runIn {c : BitVec 7} {parser : Op Unit} (h : ParserOf c parser) {isLast : Bool}
    {length : BitVec 24} {s t : State} (hs : runIn .header (decodeBlock c isLast length parser) s = .next t)
    (ht : t.phase ≠ .failed) : s.phase = .header ∧ decodeBlock c isLast length parser s = .ok ((), t) := by
  by_cases hp : s.phase = .header
  · rcases decodeBlock_cases h isLast length s with ⟨v, _, _, -, -, -, -, -, ho⟩ | ⟨v, _, _, r, i, -, -, -, -, ho⟩
    · cases (runIn_ok hp ho).symm.trans hs
      exact ⟨hp, ho⟩
    · cases (runIn_error hp ho).symm.trans hs
      exact absurd rfl ht
  · cases (runIn_disabled _ hp).symm.trans hs

/-- A view that neither the parser nor the block around it writes is as it was when the block closed. -/
theorem Keeps.of_runIn {γ : Type} {f : State → γ} {c : BitVec 7} {parser : Op Unit} {isLast : Bool}
    {length : BitVec 24} {s t : State} (hk : Keeps f parser) (h : ParserOf c parser)
    (hs : runIn .header (decodeBlock c isLast length parser) s = .next t) (ht : t.phase ≠ .failed)
    (henter : ∀ h s, f (State.setHdr h s).enterBody = f s := by exact fun _ _ => rfl)
    (hclose : ∀ b p s, f (((State.emit b s).setBlk .empty).setPhase p) = f s := by exact fun _ _ _ => rfl) :
    f t = f s := by
  obtain ⟨-, ho⟩ := decodeBlock_of_runIn h hs ht
  rw [decodeBlock_apply] at ho
  exact (hk.bind (fun _ => close_keeps hclose) _ _ t ho).trans (henter _ s)

/-- A Picture that closes has put one payload on PAY, for one draw (R109). -/
theorem picture_puts_one_payload {isLast : Bool} {length : BitVec 24} {s t : State} (hp : s.phase = .header)
    (hs : exec (.picture isLast length) s = .next t) (ht : t.phase ≠ .failed) :
    ∃ payload, t.pay = s.pay ++ [payload] ∧ t.draws = s.draws + 1 := by
  obtain ⟨u, hu, ⟨bs, body, ps, hc⟩ | ⟨ps, r, i, hf, -⟩⟩ :=
    decodeBlock_ends parsePicture_parserOf isLast length hp
  · cases hs.symm.trans hu
    obtain ⟨r, rfl⟩ : ∃ r, body = .picture r := by
      have hty := hc.typeCode
      cases body with
      | picture r => exact ⟨r, rfl⟩
      | _ => simp [Body.typeCode] at hty
    obtain ⟨-, payload, -, -, -, rfl, -⟩ := hc.encodes
    exact ⟨payload, hc.pay, hc.draws⟩
  · cases hs.symm.trans hu
    exact absurd hf.phase ht

/-- Settles O36: each parser keeps the view the statement names, and so does the block around it; a Picture's payload,
draw and released sink are its handoff's. -/
theorem closedBlockRegisterFrame : Obligations.ClosedBlockRegisterFrame := by
  refine fun isLast length s t ht => ⟨fun hs => ?_, fun hs => ?_, fun hs => ?_, fun hs => ?_, fun hs => ?_⟩
  · simpa [State.sinkSide] using parseStreamInfo_keeps.of_runIn parseStreamInfo_parserOf hs ht
  · simpa [State.sinkSide] using parsePadding_keeps.of_runIn parsePadding_parserOf hs ht
  · simpa [State.sinkSide] using parseSeekTable_keeps.of_runIn parseSeekTable_parserOf hs ht
  · simpa [State.sinkSide] using parseVorbisComment_keeps.of_runIn parseVorbisComment_parserOf hs ht
  · obtain ⟨hp, ho⟩ := decodeBlock_of_runIn parsePicture_parserOf hs ht
    obtain ⟨payload, hpay, hdraws⟩ := picture_puts_one_payload hp hs ht
    rw [decodeBlock_apply] at ho
    have hsink := parsePicture_sets_sinkHeld.bind_left (fun _ => close_keeps) _ _ t ho
    exact ⟨parsePicture_keeps.of_runIn parsePicture_parserOf hs ht, payload, hpay, hsink, hdraws⟩

end Sys2Proof.Machine
end

section
/-! Header dispatch (R80 to R87): a type without a parser fails at once, with its code; a block that closes is framed by
its header; and a header that is not there is a truncation. -/

namespace Sys2Proof.Machine

/-! ### Types without a parser (R82 to R85) -/

/-- The failure entry is the rejection's whole effect: only HDR is written before it, and HDR does not survive it. -/
theorem rejectBlock_fails (c : UnsupportedCause) (t : BitVec 7) (isLast : Bool) (length : BitVec 24) {s : State}
    (hp : s.phase = .header) :
    ∃ u, runIn .header (rejectBlock c t isLast length) s = .next u ∧
      FailedFrom s u (.unsupported c) (t.setWidth 32) :=
  ⟨_, runIn_error hp (rejectBlock_apply c t isLast length s), ⟨rfl, rfl, rfl, rfl, rfl, rfl, rfl⟩⟩

/-- Settles O18: each of the three is the rejection of its own code. -/
theorem applicationCuesheetInvalidFailAtDispatch : Obligations.ApplicationCuesheetInvalidFailAtDispatch :=
  fun isLast length _ hp =>
    ⟨rejectBlock_fails .application 2 isLast length hp, rejectBlock_fails .cuesheet 5 isLast length hp,
      rejectBlock_fails .invalid 127 isLast length hp⟩

/-- All 120 reserved codes behave alike (R85): the map's instruction of the code is the rejection of that code. -/
theorem exec_instrOfCode_reserved {t : BitVec 7} (hlo : 7 ≤ t.toNat) (hhi : t.toNat ≤ 126) (isLast : Bool)
    (length : BitVec 24) (s : State) :
    exec (instrOfCode t isLast length) s = rejectReserved t isLast length s := by
  have hcode : ∀ k, 7 ≤ k → k ≤ 126 → exec (instrOfCode (BitVec.ofNat 7 k) isLast length) s =
      rejectReserved (BitVec.ofNat 7 k) isLast length s := by
    intro k hlo hhi
    interval_cases k <;> rfl
  simpa using hcode t.toNat hlo hhi

/-- Settles O19: the map leads every reserved code to the one rejection, which puts the code in `info`. -/
theorem reservedCodesFailAtDispatch : Obligations.ReservedCodesFailAtDispatch := by
  intro t isLast length s hlo hhi hp
  rw [exec_instrOfCode_reserved hlo hhi, BitVec.ofNat_toNat]
  exact rejectBlock_fails .reserved t isLast length hp

/-! ### Blocks that close (R86, R87) -/

/-- A block instruction answers in HEADER only (R80). -/
theorem phase_of_exec_header {i : Instr} (hi : i.slot = .header) {s t : State} (h : exec i s = .next t) :
    s.phase = .header := by
  by_contra hp
  have hstop : exec i s = .fault .notEnabled := by
    cases i with
    | sig => cases hi
    | streaminfo | padding | seektable | vorbiscomment | picture => exact runIn_disabled (decodeBlock _ _ _ _) hp
    | _ => exact runIn_disabled (rejectBlock _ _ _ _) hp
  cases hstop.symm.trans h

/-- A block instruction that does not fail closes its block. -/
theorem closes_of_exec_header {i : Instr} (hi : i.slot = .header) {s t : State} (h : exec i s = .next t)
    (ht : t.phase ≠ .failed) : ∃ bs body ps, Closes s t (instrHdr i) bs body ps := by
  obtain ⟨u, hu, hclosed | ⟨ps, r, info, hf, -⟩⟩ := exec_header_cases i hi (phase_of_exec_header hi h)
  · cases hu.symm.trans h
    exact hclosed
  · cases hu.symm.trans h
    exact absurd hf.phase ht

/-- Settles O35: a block that did not fail closed, and its body is as long as the header says. -/
theorem closedBlockFrame : Obligations.ClosedBlockFrame := by
  intro i s t hi h ht
  obtain ⟨bs, body, ps, hc⟩ := closes_of_exec_header hi h ht
  have hcursor : t.cursor = s.cursor + (instrHdr i).length.toNat := hc.length ▸ hc.cursor
  exact ⟨hc.hdr, hcursor, hc.rem, hc.blk, hc.err, hc.inp, fun a => congrArg (·.read a) hc.inp, hc.phase, body, hc.evt⟩

/-! ### The header that is not there (R80, R117) -/

/-- Settles O40: the step is the failure entry of the header's read. -/
theorem missingHeaderIsTruncation : Obligations.MissingHeaderIsTruncation := fun s hwf hp hn =>
  ⟨_, step_of_missing_header hwf hp hn, failedFrom_failureEntry s _ _⟩

end Sys2Proof.Machine
end

section
/-! STREAMINFO, PADDING and SEEKTABLE that close (R56 to R58, R90 to R92): the parser reads the record the body's bytes
stand for, and CLOSE finds the window empty. -/

namespace Sys2Proof.Machine

/-! ### A block whose parser fills its window -/

section
variable {t : BitVec 7} {isLast : Bool} {length : BitVec 24} {s : State}

/-- The body DISPATCH enters holds the bytes at the cursor, if the header's length has room for them (R81). -/
theorem holds_enterBody {bytes : List Byte} (h : s.ahead bytes) (hl : bytes.length ≤ length.toNat) :
    (s.setHdr ⟨isLast, t, length⟩).enterBody.Holds bytes := ⟨rfl, hl, h⟩

/-- A parser that answers after exactly `length` bytes closes its block (R86). -/
theorem runIn_decodeBlock_closes {parser : Op Unit} {a : BitVec 64} {c l : BitVec 32} {body : Body}
    (hp : s.phase = .header)
    (h : parser (s.setHdr ⟨isLast, t, length⟩).enterBody =
      .ok ((), ((s.setHdr ⟨isLast, t, length⟩).enterBody.moved length.toNat a c l).setBlk body)) :
    runIn .header (decodeBlock t isLast length parser) s = .next { s with
      hdr := ⟨isLast, t, length⟩, cursor := s.cursor + length.toNat, bodyRem := 0, acc := a, cnt := c, len := l
      blk := .empty, evt := s.evt ++ [⟨isLast, t, length, body⟩], phase := if isLast then .done else .header } := by
  have hrem : (((s.setHdr ⟨isLast, t, length⟩).enterBody.moved length.toNat a c l).setBlk body).bodyRem = 0 := by
    simp [moved_bodyRem_eq]
  refine runIn_ok hp ?_
  rw [decodeBlock_apply, op_bind_ok h, close_ok hrem]
  refine congrArg (fun u => Except.ok ((), u)) (State.ext rfl rfl rfl rfl hrem rfl rfl rfl rfl rfl rfl rfl rfl rfl)

end

/-! ### Fields read one after another -/

/-- READ_BE of a field, and then the rest of the body (R71). -/
theorem readBE_bind_holds {α : Type} {w : Width} {k : Nat} {v : BitVec k} {rest : List Byte} {s : State}
    (hk : k = 8 * w.bytes) (h : s.Holds (beBytes w.bytes v.toNat ++ rest)) (hc : s.cursor ≤ s.inp.length)
    (f : Nat → Op α) :
    ∃ u, u = s.moved w.bytes (v.setWidth 64) s.cnt s.len ∧ (readBE w >>= f) s = f v.toNat u ∧ u.Holds rest ∧
      u.cursor ≤ u.inp.length := by
  have hv : v.toNat < 256 ^ w.bytes := by
    subst hk
    simpa only [Nat.pow_mul] using v.isLt
  have hlen : w.bytes = (beBytes w.bytes v.toNat).length := (length_beBytes _ _).symm
  refine ⟨_, rfl, ?_, h.right hlen _ _ _, h.inside hc (by simp) _ _ _⟩
  rw [op_bind_ok (readBE_holds hv h.left hc), BitVec.ofNat_toNat]

/-- The STREAMINFO parser, on the bytes of a record (R56, R90). -/
theorem parseStreamInfo_holds {r : StreamInfoRec} {s : State} (hr : r.checksum.length = Config.checksumBytes)
    (h : s.Holds r.bytes) (hc : s.cursor ≤ s.inp.length) :
    parseStreamInfo s = .ok ((), (s.moved 34 r.packed s.cnt s.len).setBlk (.streamInfo r)) := by
  simp only [StreamInfoRec.bytes, List.append_assoc] at h
  unfold parseStreamInfo
  obtain ⟨_, rfl, hrun, h, hc⟩ := readBE_bind_holds (w := .w16) rfl h hc _
  rw [hrun]
  obtain ⟨_, rfl, hrun, h, hc⟩ := readBE_bind_holds (w := .w16) rfl h hc _
  rw [hrun]
  obtain ⟨_, rfl, hrun, h, hc⟩ := readBE_bind_holds (w := .w24) rfl h hc _
  rw [hrun]
  obtain ⟨_, rfl, hrun, h, hc⟩ := readBE_bind_holds (w := .w24) rfl h hc _
  rw [hrun]
  obtain ⟨_, rfl, hrun, h, hc⟩ := readBE_bind_holds (w := .w64) rfl h hc _
  rw [hrun, readBytes, op_bind_ok (take_holds_of_length h hc hr.symm), update_apply]
  simp [Width.bytes, Config.checksumBytes]

/-- One seek point, on its bytes (R58, R92). -/
theorem readPoint_holds (p : SeekPoint) (s : State) (h : s.Holds p.bytes) (hc : s.cursor ≤ s.inp.length) :
    readPoint s = .ok (p, s.moved p.bytes.length (p.frameSamples.setWidth 64) s.cnt s.len) := by
  rw [length_seekPoint_bytes]
  rw [SeekPoint.bytes, List.append_assoc] at h
  unfold readPoint
  obtain ⟨_, rfl, hrun, h, hc⟩ := readBE_bind_holds (w := .w64) rfl h hc _
  rw [hrun]
  obtain ⟨_, rfl, hrun, h, hc⟩ := readBE_bind_holds (w := .w64) rfl h hc _
  rw [hrun]
  obtain ⟨_, rfl, hrun, -, -⟩ := readBE_bind_holds (w := .w16) (rest := []) rfl (by simpa [Width.bytes] using h) hc _
  rw [hrun, op_pure]
  simp [Width.bytes]

/-- What is left of a register that every item of a list overwrites. -/
theorem foldl_overwrite {α β : Type} (f : α → β) (xs : List α) (b : β) :
    xs.foldl (fun _ x => f x) b = (xs.getLast?.map f).getD b := by
  induction xs using List.reverseRecOn with
  | nil => rfl
  | append_singleton xs x _ => simp

/-- The counted loop over seek points: ACC holds the last read, CNT has counted down (R92). -/
theorem countLoop_readPoint_holds {points : List SeekPoint} {s : State} (h : s.Holds (points.flatMap SeekPoint.bytes))
    (hc : s.cursor ≤ s.inp.length) :
    countLoop readPoint points.length s = .ok (points, s.moved (18 * points.length)
      ((points.getLast?.map fun p => p.frameSamples.setWidth 64).getD s.acc)
      (s.cnt - BitVec.ofNat 32 points.length) s.len) := by
  have hlen : (points.flatMap SeekPoint.bytes).length = 18 * points.length := length_seekTable_bytes ⟨points⟩
  have hloop := countLoop_holds (len := fun l _ => l) readPoint_holds points s h hc
  rwa [hlen, foldl_overwrite, List.foldl_fixed] at hloop

/-- The SEEKTABLE parser, on the bytes of `length div 18` points (R58, R92). -/
theorem parseSeekTable_holds {points : List SeekPoint} {s : State} (hn : s.hdr.length.toNat = 18 * points.length)
    (h : s.Holds (points.flatMap SeekPoint.bytes)) (hc : s.cursor ≤ s.inp.length) :
    parseSeekTable s = .ok ((), (s.moved (18 * points.length)
      ((points.getLast?.map fun p => p.frameSamples.setWidth 64).getD s.acc) 0 s.len).setBlk
      (.seekTable ⟨points⟩)) := by
  have hdiv : s.hdr.length.toNat / Config.seekPointBytes = points.length := by
    rw [hn]
    exact Nat.mul_div_cancel_left _ (by decide)
  have hlt : points.length < 2 ^ 32 := by
    have := s.hdr.length.isLt
    omega
  simp only [parseSeekTable, look_bind, update_bind, setCnt_cnt]
  rw [hdiv, ofNat_toNat_lt hlt,
    op_bind_ok (countLoop_readPoint_holds (s := s.setCnt (BitVec.ofNat 32 points.length)) ⟨h.body, h.fits, h.ahead⟩ hc),
    update_apply, setCnt_cnt, BitVec.sub_self]
  rfl

/-! ### The records reported -/

/-- Settles O21: the parser reads the record back from its 34 bytes, which fill the window. -/
theorem streamInfoReportsItsFields : Obligations.StreamInfoReportsItsFields := by
  intro r isLast s hp hr ha
  have ha : s.ahead r.bytes := ha
  have hlen := length_streamInfo_bytes hr
  have hc : s.cursor ≤ s.inp.length := by
    have := ha.fits (List.ne_nil_of_length_eq_add_one hlen)
    omega
  exact runIn_decodeBlock_closes hp (parseStreamInfo_holds hr (holds_enterBody ha hlen.le) hc)

/-- Settles O25: the loop reads each point back from its bytes, and together they fill the window. -/
theorem seekTableReportsItsPoints : Obligations.SeekTableReportsItsPoints := by
  intro points isLast length s hp hn hc ha
  have ha : s.ahead (points.flatMap SeekPoint.bytes) := ha
  have hlen : (points.flatMap SeekPoint.bytes).length ≤ length.toNat :=
    (length_seekTable_bytes ⟨points⟩).trans hn.symm |>.le
  have hrun := parseSeekTable_holds (s := (s.setHdr ⟨isLast, 3, length⟩).enterBody) hn (holds_enterBody ha hlen) hc
  exact runIn_decodeBlock_closes hp (hn ▸ hrun)

end Sys2Proof.Machine
end

section
/-! STREAMINFO, PADDING and SEEKTABLE that fail (R90, R91, R93, R126). The body of such a block is a sequence of fields
of known sizes; the first that does not fit the window or the stream decides the failure (R70), and what is left of the
window after the last is CLOSE's to find (R86). -/

namespace Sys2Proof.Machine

/-! ### The first field that does not fit -/

/-- The failure a body read field by field ends in: `window` bytes are left of the body, the stream has `N` bytes and is
read from `cursor`, and `sizes` are the fields still to read. -/
def fieldFailure : (sizes : List Nat) → (window cursor N : Nat) → Option (Reason × BitVec 32)
  | [], _, _, _ => none
  | n :: ns, window, cursor, N =>
    if window < n then some (.format .bodyOverread, BitVec.ofNat 32 n)
    else if N < cursor + n then some (.truncated .inBody, 0)
    else fieldFailure ns (window - n) (cursor + n) N

section
variable {n : Nat} {sizes more : List Nat} {window cursor N : Nat}

theorem fieldFailure_cons_of_window (h : window < n) :
    fieldFailure (n :: sizes) window cursor N = some (.format .bodyOverread, BitVec.ofNat 32 n) := if_pos h

theorem fieldFailure_cons_of_stream (hw : n ≤ window) (h : N < cursor + n) :
    fieldFailure (n :: sizes) window cursor N = some (.truncated .inBody, 0) := by
  rw [fieldFailure, if_neg hw.not_gt, if_pos h]

theorem fieldFailure_cons_of_fits (hw : n ≤ window) (h : cursor + n ≤ N) :
    fieldFailure (n :: sizes) window cursor N = fieldFailure sizes (window - n) (cursor + n) N := by
  rw [fieldFailure, if_neg hw.not_gt, if_neg h.not_gt]

/-- Window and stream hold all the fields. -/
theorem fieldFailure_eq_none (hw : sizes.sum ≤ window) (hn : cursor + sizes.sum ≤ N) :
    fieldFailure sizes window cursor N = none := by
  induction sizes generalizing window cursor with
  | nil => rfl
  | cons n ns ih =>
    rw [List.sum_cons] at hw hn
    rw [fieldFailure_cons_of_fits (by omega) (by omega), ih (by omega) (by omega)]

/-- The window holds all the fields, and the stream does not. -/
theorem fieldFailure_of_truncated (hne : sizes ≠ []) (hw : sizes.sum ≤ window) (hn : N < cursor + sizes.sum) :
    fieldFailure sizes window cursor N = some (.truncated .inBody, 0) := by
  induction sizes generalizing window cursor with
  | nil => exact absurd rfl hne
  | cons n ns ih =>
    rw [List.sum_cons] at hw hn
    by_cases hfit : cursor + n ≤ N
    · have hns : ns ≠ [] := by
        rintro rfl
        simp only [List.sum_nil] at hn
        omega
      rw [fieldFailure_cons_of_fits (by omega) hfit, ih hns (by omega) (by omega)]
    · exact fieldFailure_cons_of_stream (by omega) (by omega)

/-- Fields after others: the first of all that does not fit. -/
theorem fieldFailure_append : fieldFailure (sizes ++ more) window cursor N =
    (fieldFailure sizes window cursor N).or (fieldFailure more (window - sizes.sum) (cursor + sizes.sum) N) := by
  induction sizes generalizing window cursor with
  | nil => rfl
  | cons n ns ih =>
    simp only [List.cons_append, fieldFailure, List.sum_cons, Nat.sub_add_eq, ← Nat.add_assoc]
    split
    · rfl
    · split
      · rfl
      · exact ih

end

/-! ### Operations that read fields of known sizes -/

/-- `t` is `s` after `n` bytes of the body were read: where the next read stands, and what a failure entry keeps. -/
structure ReadPast (s t : State) (n : Nat) : Prop where
  inp : t.inp = s.inp
  phase : t.phase = s.phase
  cursor : t.cursor = s.cursor + n
  rem : t.bodyRem.toNat = s.bodyRem.toNat - n
  evt : t.evt = s.evt
  pay : t.pay = s.pay
  sinkHeld : t.sinkHeld = s.sinkHeld

theorem ReadPast.trans {s t u : State} {m n : Nat} (h : ReadPast s t m) (k : ReadPast t u n) :
    ReadPast s u (m + n) where
  inp := k.inp.trans h.inp
  phase := k.phase.trans h.phase
  cursor := by rw [k.cursor, h.cursor, Nat.add_assoc]
  rem := by rw [k.rem, h.rem, Nat.sub_sub]
  evt := k.evt.trans h.evt
  pay := k.pay.trans h.pay
  sinkHeld := k.sinkHeld.trans h.sinkHeld

theorem readPast_setCnt (s : State) (v : BitVec 32) : ReadPast s (s.setCnt v) 0 := ⟨rfl, rfl, rfl, rfl, rfl, rfl, rfl⟩

/-- A failure after some of the body was read: the reads have left no trace that survives it (R127). -/
theorem ReadPast.failedFrom {s t e : State} {n : Nat} {reason : Reason} {info : BitVec 32} (h : ReadPast s t n)
    (k : FailedFrom t e reason info) : FailedFrom s e reason info :=
  ⟨k.err, k.phase, k.blk, k.inp.trans h.inp, k.evt.trans h.evt, k.pay.trans h.pay, k.sinkHeld.trans h.sinkHeld⟩

/-- The failure that reading fields of these sizes ends in, from the state `s`. -/
def State.fieldFailure (s : State) (sizes : List Nat) : Option (Reason × BitVec 32) :=
  Machine.fieldFailure sizes s.bodyRem.toNat s.cursor s.inp.length

theorem ReadPast.fieldFailure {s t : State} {n : Nat} (h : ReadPast s t n) (sizes : List Nat) :
    t.fieldFailure sizes = Machine.fieldFailure sizes (s.bodyRem.toNat - n) (s.cursor + n) s.inp.length := by
  rw [State.fieldFailure, h.rem, h.cursor, h.inp]

/-- From `s`, the run `r` has read fields of these sizes, or has failed at the first that does not fit. -/
structure FieldsRead {α : Type} (sizes : List Nat) (s : State) (r : Except State (α × State)) : Prop where
  ok : s.fieldFailure sizes = none → ∃ a t, r = .ok (a, t) ∧ ReadPast s t sizes.sum
  error : ∀ reason info, s.fieldFailure sizes = some (reason, info) → ∃ e, r = .error e ∧ FailedFrom s e reason info

/-- In a body, the operation reads fields of these sizes. -/
def ReadsFields {α : Type} (sizes : List Nat) (op : Op α) : Prop :=
  ∀ s : State, s.phase = .body → FieldsRead sizes s (op s)

section
variable {α β : Type} {sizes more : List Nat}

/-- An operation that reads no field, and only writes registers the parsers own. -/
theorem ReadsFields.of_ok {op : Op α} {a : α} {f : State → State} (h : ∀ s, op s = .ok (a, f s))
    (hf : ∀ s, ReadPast s (f s) 0 := by exact fun _ => ⟨rfl, rfl, rfl, rfl, rfl, rfl, rfl⟩) : ReadsFields [] op :=
  fun s _ => ⟨fun _ => ⟨a, f s, h s, hf s⟩, fun _ _ hfail => by cases hfail⟩

theorem ReadsFields.pure (a : α) : ReadsFields [] (Pure.pure a : Op α) := .of_ok (f := id) fun _ => rfl

theorem ReadsFields.update {f : State → State}
    (hf : ∀ s, ReadPast s (f s) 0 := by exact fun _ => ⟨rfl, rfl, rfl, rfl, rfl, rfl, rfl⟩) :
    ReadsFields [] (update f) := .of_ok (fun _ => rfl) hf

/-- Sequencing: the second part's fields follow the first's. -/
theorem FieldsRead.bind {x : Op α} {f : α → Op β} {s : State} (hs : s.phase = .body) (hx : FieldsRead sizes s (x s))
    (hf : ∀ a, ReadsFields more (f a)) : FieldsRead (sizes ++ more) s ((x >>= f) s) := by
  have happend : s.fieldFailure (sizes ++ more) = _ := fieldFailure_append
  cases h : s.fieldFailure sizes with
  | none =>
    obtain ⟨a, t, hrun, hpast⟩ := hx.ok h
    rw [← State.fieldFailure, h, Option.none_or, ← hpast.fieldFailure] at happend
    have hrest := hf a t (hpast.phase.trans hs)
    rw [op_bind_ok hrun]
    refine ⟨fun hnone => ?_, fun reason info hsome => ?_⟩
    · obtain ⟨b, u, hb, hpast'⟩ := hrest.ok (happend ▸ hnone)
      exact ⟨b, u, hb, by simpa using hpast.trans hpast'⟩
    · obtain ⟨e, he, hfail⟩ := hrest.error reason info (happend ▸ hsome)
      exact ⟨e, he, hpast.failedFrom hfail⟩
  | some failure =>
    rw [← State.fieldFailure, h, Option.some_or] at happend
    refine ⟨fun hnone => ?_, fun reason info hsome => ?_⟩
    · cases happend.symm.trans hnone
    · obtain ⟨e, he, hfail⟩ := hx.error reason info (h.trans (happend.symm.trans hsome))
      exact ⟨e, op_bind_error he f, hfail⟩

theorem ReadsFields.bind {x : Op α} {f : α → Op β} (hx : ReadsFields sizes x) (hf : ∀ a, ReadsFields more (f a)) :
    ReadsFields (sizes ++ more) (x >>= f) := fun s hs => (hx s hs).bind hs hf

/-- A register update before the fields. -/
theorem ReadsFields.after {op : Op α} (hop : ReadsFields sizes op) {s t : State} (h : ReadPast s t 0)
    (hs : s.phase = .body) : FieldsRead sizes s (op t) := by
  have k := hop t (h.phase.trans hs)
  have hsame : t.fieldFailure sizes = s.fieldFailure sizes := h.fieldFailure sizes
  refine ⟨fun hnone => ?_, fun reason info hsome => ?_⟩
  · obtain ⟨a, u, hrun, hpast⟩ := k.ok (hsame.trans hnone)
    exact ⟨a, u, hrun, Nat.zero_add sizes.sum ▸ h.trans hpast⟩
  · obtain ⟨e, he, hfail⟩ := k.error reason info (hsame.trans hsome)
    exact ⟨e, he, h.failedFrom hfail⟩

end

/-- Take is one field: the window before the stream (R70). -/
theorem take_readsFields (n : Nat) : ReadsFields [n] (take n) := by
  intro s hs
  rcases take_cases n s with ⟨hw, hn, h⟩ | ⟨-, hw, h⟩ | ⟨hw, hn, h⟩
  · have hnone : s.fieldFailure [n] = none := fieldFailure_eq_none (by simpa using hw hs) (by simpa using hn)
    refine ⟨fun _ => ⟨_, _, h, rfl, rfl, rfl, ?_, rfl, rfl, rfl⟩, fun _ _ hsome => ?_⟩
    · rw [toNat_advance_bodyRem hw, if_pos hs]
      rfl
    · cases hnone.symm.trans hsome
  · have hover := fieldFailure_cons_of_window (sizes := []) (cursor := s.cursor) (N := s.inp.length) hw
    refine ⟨fun hnone => ?_, fun _ _ hsome => ?_⟩
    · cases hover.symm.trans hnone
    · cases hover.symm.trans hsome
      exact ⟨_, h, failedFrom_failureEntry s _ _⟩
  · have hcut := fieldFailure_cons_of_stream (sizes := []) (hw hs) hn
    refine ⟨fun hnone => ?_, fun _ _ hsome => ?_⟩
    · cases hcut.symm.trans hnone
    · cases hcut.symm.trans hsome
      rw [hs] at h
      exact ⟨_, h, failedFrom_failureEntry s _ _⟩

theorem readBE_readsFields (w : Width) : ReadsFields [w.bytes] (readBE w) :=
  (take_readsFields w.bytes).bind fun _ => ReadsFields.bind .update fun _ => .pure _

/-- The counted loop: the fields of one item, as many times as there are items (R92). -/
theorem countLoop_readsFields {α : Type} {sizes : List Nat} {item : Op α} (hitem : ReadsFields sizes item) (n : Nat) :
    ReadsFields (List.replicate n sizes).flatten (countLoop item n) := by
  induction n with
  | zero => exact .pure _
  | succ n ih =>
    have hrest := fun x => ih.bind fun xs => ReadsFields.pure (x :: xs)
    simp only [List.append_nil] at hrest
    exact hitem.bind fun x => ReadsFields.bind .update fun _ => hrest x

/-! ### The parsers -/

/-- The sizes of the fields of a STREAMINFO body (R56). -/
def streamInfoSizes : List Nat := [2, 2, 3, 3, 8, 16]

theorem parseStreamInfo_readsFields : ReadsFields streamInfoSizes parseStreamInfo :=
  (readBE_readsFields .w16).bind fun _ => (readBE_readsFields .w16).bind fun _ =>
    (readBE_readsFields .w24).bind fun _ => (readBE_readsFields .w24).bind fun _ =>
      (readBE_readsFields .w64).bind fun _ => (take_readsFields Config.checksumBytes).bind fun _ => .update

/-- The sizes of the fields of `n` seek points (R58). -/
def seekPointSizes (n : Nat) : List Nat := (List.replicate n [8, 8, 2]).flatten

theorem sum_seekPointSizes (n : Nat) : (seekPointSizes n).sum = 18 * n := by
  simp [seekPointSizes, List.sum_flatten, Nat.mul_comm]

theorem readPoint_readsFields : ReadsFields [8, 8, 2] readPoint :=
  (readBE_readsFields .w64).bind fun _ => (readBE_readsFields .w64).bind fun _ =>
    (readBE_readsFields .w16).bind fun _ => .pure _

/-- The SEEKTABLE parser reads the whole points of the header's length, and no remainder (R92, R93). -/
theorem parseSeekTable_fieldsRead {s : State} (hs : s.phase = .body) :
    FieldsRead (seekPointSizes (s.hdr.length.toNat / 18)) s (parseSeekTable s) := by
  have hlt : s.hdr.length.toNat / 18 < 2 ^ 32 := by
    have := s.hdr.length.isLt
    omega
  have hpoints : ReadsFields (seekPointSizes (s.hdr.length.toNat / 18) ++ []) _ :=
    (countLoop_readsFields readPoint_readsFields _).bind fun points => .update (f := State.setBlk (.seekTable ⟨points⟩))
  rw [List.append_nil] at hpoints
  simp only [parseSeekTable, look_bind, update_bind, setCnt_cnt, Config.seekPointBytes, ofNat_toNat_lt hlt]
  exact hpoints.after (readPast_setCnt s _) hs

/-! ### The whole block -/

section
variable {t : BitVec 7} {isLast : Bool} {length : BitVec 24} {s : State} {parser : Op Unit} {sizes : List Nat}

/-- A field that does not fit is the failure of the whole block (R70). -/
theorem runIn_decodeBlock_fails {reason : Reason} {info : BitVec 32} (hp : s.phase = .header)
    (h : FieldsRead sizes (s.setHdr ⟨isLast, t, length⟩).enterBody (parser (s.setHdr ⟨isLast, t, length⟩).enterBody))
    (hf : fieldFailure sizes length.toNat s.cursor s.inp.length = some (reason, info)) :
    ∃ u, runIn .header (decodeBlock t isLast length parser) s = .next u ∧ FailedFrom s u reason info := by
  obtain ⟨e, he, hfail⟩ := h.error reason info hf
  refine ⟨e, runIn_error hp ?_, hfail.err, hfail.phase, hfail.blk, hfail.inp, hfail.evt, hfail.pay, hfail.sinkHeld⟩
  rw [decodeBlock_apply, op_bind_error he]

/-- A body longer than its fields is an under-read by the excess, found by CLOSE (R86). -/
theorem runIn_decodeBlock_underreads (hp : s.phase = .header)
    (h : FieldsRead sizes (s.setHdr ⟨isLast, t, length⟩).enterBody (parser (s.setHdr ⟨isLast, t, length⟩).enterBody))
    (hw : sizes.sum < length.toNat) (hn : s.cursor + sizes.sum ≤ s.inp.length) :
    ∃ u, runIn .header (decodeBlock t isLast length parser) s = .next u ∧
      FailedFrom s u (.format .bodyUnderread) (BitVec.ofNat 32 (length.toNat - sizes.sum)) := by
  obtain ⟨⟨⟩, v, hv, hpast⟩ := h.ok (fieldFailure_eq_none hw.le hn)
  have hrem : v.bodyRem.toNat = length.toNat - sizes.sum := hpast.rem
  have hne : v.bodyRem ≠ 0 := by
    intro hz
    rw [hz] at hrem
    exact absurd hrem.symm (Nat.sub_ne_zero_of_lt hw)
  refine ⟨v.failureEntry (.format .bodyUnderread) (v.bodyRem.setWidth 32), runIn_error hp ?_, ?_⟩
  · rw [decodeBlock_apply, op_bind_ok hv, close_underread hne]
  · rw [← hrem, BitVec.ofNat_toNat]
    exact ⟨rfl, rfl, rfl, hpast.inp, hpast.evt, hpast.pay, hpast.sinkHeld⟩

end

/-! ### STREAMINFO -/

/-- A window shorter than the 34 bytes of a STREAMINFO ends inside a field: the first that reaches past it (R90). -/
theorem fieldFailure_streamInfoSizes {window cursor N : Nat} (hw : window < 34) (hn : cursor + window ≤ N) :
    fieldFailure streamInfoSizes window cursor N = some (.format .bodyOverread,
      if window < 4 then 2 else if window < 10 then 3 else if window < 18 then 8 else 16) := by
  obtain h | h | h | h | h | h : window < 2 ∨ (2 ≤ window ∧ window < 4) ∨ (4 ≤ window ∧ window < 7) ∨
      (7 ≤ window ∧ window < 10) ∨ (10 ≤ window ∧ window < 18) ∨ 18 ≤ window := by omega
  all_goals
    simp (disch := omega) only [streamInfoSizes, fieldFailure_cons_of_fits, fieldFailure_cons_of_window, if_pos, if_neg]
    rfl

/-- Settles O22: the stream holds the window, so the first field to fail is the first that reaches past the window. -/
theorem shortStreamInfoOverreads : Obligations.ShortStreamInfoOverreads := fun _ _ _ hp hw hn =>
  runIn_decodeBlock_fails hp (parseStreamInfo_readsFields _ rfl) (fieldFailure_streamInfoSizes hw hn)

/-- Settles O23: the window has room for all six fields, so either the stream cuts one of them off, or all are read and
CLOSE finds the excess. -/
theorem longStreamInfoFails : Obligations.LongStreamInfoFails := fun _ _ _ hp hw =>
  ⟨fun hn => runIn_decodeBlock_fails hp (parseStreamInfo_readsFields _ rfl)
      (fieldFailure_of_truncated (List.cons_ne_nil _ _) hw hn),
    fun hw hn => runIn_decodeBlock_underreads hp (parseStreamInfo_readsFields _ rfl) hw hn⟩

/-! ### SEEKTABLE -/

/-- Settles O26: the points' fields add up to 18 bytes a point, and what the division leaves is the excess. -/
theorem seekTableRemainderFails : Obligations.SeekTableRemainderFails := by
  intro isLast length s hp hc
  have hsum := sum_seekPointSizes (length.toNat / 18)
  have hread : FieldsRead (seekPointSizes (length.toNat / 18)) _ _ :=
    parseSeekTable_fieldsRead (s := (s.setHdr ⟨isLast, 3, length⟩).enterBody) rfl
  refine ⟨fun hrem hn => ?_, fun hn => ?_⟩
  · have hexcess : length.toNat - (seekPointSizes (length.toNat / 18)).sum = length.toNat % 18 := by omega
    rw [← hexcess]
    exact runIn_decodeBlock_underreads hp hread (by omega) (hsum ▸ hn)
  · have hne : seekPointSizes (length.toNat / 18) ≠ [] := by
      intro hnil
      rw [hnil, List.sum_nil] at hsum
      omega
    exact runIn_decodeBlock_fails hp hread (fieldFailure_of_truncated hne (by omega) (hsum ▸ hn))

/-! ### PADDING -/

/-- The PADDING parser is one field, of the header's length (R91). -/
theorem parsePadding_fieldsRead {s : State} (hs : s.phase = .body) :
    FieldsRead [s.hdr.length.toNat] s (parsePadding s) :=
  (take_readsFields s.hdr.length.toNat s hs).bind hs fun _ => .pure _

/-- The PADDING parser, with its body in the window and the stream (R91). -/
theorem parsePadding_ok {s : State} (hw : s.phase = .body → s.hdr.length.toNat ≤ s.bodyRem.toNat)
    (hn : s.cursor + s.hdr.length.toNat ≤ s.inp.length) :
    parsePadding s = .ok ((), s.advance s.hdr.length.toNat) :=
  skip_eq_ok_iff.2 ⟨hw, hn, rfl⟩

/-- Settles O24: the one field always fits the window, so only the stream can fail it; and when the stream does not,
the field has filled the window. -/
theorem paddingSkipsItsBody : Obligations.PaddingSkipsItsBody := by
  refine fun isLast length s hp => ⟨fun hn => ?_, fun hn => ?_⟩
  · exact runIn_decodeBlock_closes hp
      (parsePadding_ok (s := (s.setHdr ⟨isLast, 1, length⟩).enterBody) (fun _ => Nat.le_refl _) hn)
  · exact runIn_decodeBlock_fails hp (parsePadding_fieldsRead rfl) (fieldFailure_cons_of_stream (Nat.le_refl _) hn)

end Sys2Proof.Machine
end

section
/-! Length-prefixed strings (R101, R107): a string that fits is read whole, and a length word larger than what is left
of the body is an over-read. -/

namespace Sys2Proof.Machine

/-- A move past `n` bytes of the body is a read of `n` bytes, whatever it leaves in ACC, CNT and LEN. -/
theorem readPast_moved {s : State} {n : Nat} (hp : s.phase = .body) (hn : n ≤ s.bodyRem.toNat) (a : BitVec 64)
    (c l : BitVec 32) : ReadPast s (s.moved n a c l) n :=
  ⟨rfl, rfl, rfl, moved_bodyRem hp hn a c l, rfl, rfl, rfl⟩

theorem readPast_setBlk (s : State) (b : Body) : ReadPast s (s.setBlk b) 0 := ⟨rfl, rfl, rfl, rfl, rfl, rfl, rfl⟩

/-- Bytes ahead are inside the stream, and so is the cursor before them. -/
theorem State.ahead.cursor_le {s : State} {b : List Byte} (h : s.ahead b) (hb : b ≠ []) : s.cursor ≤ s.inp.length :=
  Nat.le_of_add_right_le (h.fits hb)

/-! ### Strings that fit -/

/-- What reading `b` and its length word leaves behind, whatever the word's byte order. -/
theorem exists_read_whole {op : Op (List Byte)} {s : State} {b : List Byte} (hp : s.phase = .body)
    (hw : 4 + b.length ≤ s.bodyRem.toNat)
    (hrun : op s = .ok (b, s.moved (4 + b.length) (BitVec.ofNat 64 b.length) s.cnt (BitVec.ofNat 32 b.length))) :
    ∃ t, op s = .ok (b, t) ∧ t.cursor = s.cursor + 4 + b.length ∧
      t.bodyRem.toNat = s.bodyRem.toNat - (4 + b.length) ∧ t.len.toNat = b.length ∧ t.acc.toNat = b.length ∧
      t = { s with cursor := t.cursor, bodyRem := t.bodyRem, len := t.len, acc := t.acc } := by
  have hlt := s.bodyRem.isLt
  exact ⟨_, hrun, (Nat.add_assoc ..).symm, moved_bodyRem hp hw _ _ _, ofNat_toNat_lt (by omega),
    ofNat_toNat_lt (by omega), rfl⟩

/-- Settles O14: either reader moves past the length word and the string. -/
theorem prefixedStringsAreReadWhole : Obligations.PrefixedStringsAreReadWhole := by
  refine fun s b hp hw => ⟨fun ha => exists_read_whole hp hw ?_, fun ha => exists_read_whole hp hw ?_⟩
  · rw [← length_lstrLEBytes b] at hw ⊢
    exact lstrLE_holds ⟨hp, hw, ha⟩ (ha.cursor_le (by simp [leBytes]))
  · rw [← length_lstrBEBytes b] at hw ⊢
    exact lstrBE_holds ⟨hp, hw, ha⟩ (ha.cursor_le (by simp [beBytes]))

/-! ### Strings that do not fit -/

/-- The window is shorter than the length word says (R70, R101). -/
theorem stringOfLen_overread {s : State} {v : Nat} (hp : s.phase = .body) (hv : v < 2 ^ 32)
    (hw : s.bodyRem.toNat < v) : stringOfLen v s =
      .error ((s.setLen (BitVec.ofNat 32 v)).failureEntry (.format .bodyOverread) (BitVec.ofNat 32 v)) := by
  simp only [stringOfLen, update_bind, look_bind, readBytes, setLen_len, ofNat_toNat_lt hv]
  exact take_overread (s := s.setLen _) hp hw

/-- A length word `v` that `read` answers, larger than what is left after its four bytes, whatever its byte order. -/
theorem exists_overread {read : Op Nat} {s : State} {v : Nat} (hp : s.phase = .body) (hv : v < 2 ^ 32)
    (hw : 4 ≤ s.bodyRem.toNat) (hover : s.bodyRem.toNat - 4 < v)
    (hread : read s = .ok (v, s.moved 4 (BitVec.ofNat 64 v) s.cnt s.len)) :
    ∃ e, (read >>= stringOfLen) s = .error e ∧ FailedFrom s e (.format .bodyOverread) (BitVec.ofNat 32 v) := by
  have hpast := readPast_moved hp hw (BitVec.ofNat 64 v) s.cnt s.len
  rw [op_bind_ok hread, stringOfLen_overread (hpast.phase.trans hp) hv (hpast.rem ▸ hover)]
  exact ⟨_, rfl, hpast.failedFrom (failedFrom_failureEntry _ _ _)⟩

/-- Settles O15: the length word is read, and the string's Take finds the window too short. -/
theorem overlongStringIsAnOverread : Obligations.OverlongStringIsAnOverread := by
  intro s v hp hv hw hover
  refine ⟨fun ha => exists_overread hp hv hw hover ?_, fun ha => exists_overread hp hv hw hover ?_⟩
  · exact readLE_holds (w := .w32) hv ⟨hp, by simpa [Width.bytes] using hw, ha⟩ (ha.cursor_le (by simp [leBytes]))
  · exact readBE_holds (w := .w32) hv ⟨hp, by simpa [Width.bytes] using hw, ha⟩ (ha.cursor_le (by simp [beBytes]))

end Sys2Proof.Machine
end

section
/-! VORBISCOMMENT (R59, R100 to R102): the strings the parser reads back, and what is left of the count and of the
window after them. -/

namespace Sys2Proof.Machine

/-! ### The counted strings -/

/-- A counted loop is the loop over its first `m` items, and then the loop over the rest. -/
theorem countLoop_add {α : Type} (item : Op α) (m n : Nat) : countLoop item (m + n) =
    (do let xs ← countLoop item m
        let ys ← countLoop item n
        pure (xs ++ ys)) := by
  induction m with
  | zero => simp [countLoop]
  | succ m ih => simp [Nat.succ_add, countLoop, ih]

/-- The counted loop over strings: ACC and LEN hold the last length word read, CNT has counted down (R100, R101). -/
theorem countLoop_lstrLE_holds {strings : List (List Byte)} {s : State} (h : s.Holds (strings.flatMap lstrLEBytes))
    (hc : s.cursor ≤ s.inp.length) :
    countLoop lstrLE strings.length s = .ok (strings, s.moved (strings.flatMap lstrLEBytes).length
      ((strings.getLast?.map fun b => BitVec.ofNat 64 b.length).getD s.acc) (s.cnt - BitVec.ofNat 32 strings.length)
      ((strings.getLast?.map fun b => BitVec.ofNat 32 b.length).getD s.len)) := by
  have hloop := countLoop_holds (len := fun _ b => BitVec.ofNat 32 b.length) (fun _ _ => lstrLE_holds) strings s h hc
  rwa [foldl_overwrite, foldl_overwrite] at hloop

/-! ### The parser -/

/-- A VORBISCOMMENT body up to the last of `comments`, whatever the count says: a record's bytes when it says their
number (R59). -/
def vorbisCommentBytes (vendor : List Byte) (count : Nat) (comments : List (List Byte)) : List Byte :=
  lstrLEBytes vendor ++ leBytes 4 count ++ comments.flatMap lstrLEBytes

@[simp] theorem length_vorbisCommentBytes (vendor : List Byte) (count : Nat) (comments : List (List Byte)) :
    (vorbisCommentBytes vendor count comments).length =
      8 + vendor.length + (comments.map fun c => 4 + c.length).sum := by
  simp [vorbisCommentBytes, List.length_flatMap]
  omega

theorem vorbisCommentBytes_ne_nil (vendor : List Byte) (count : Nat) (comments : List (List Byte)) :
    vorbisCommentBytes vendor count comments ≠ [] := by
  rw [← List.length_pos_iff, length_vorbisCommentBytes]
  omega

/-- The parser on a body of `comments`, when the count asks for `more` strings after them: what is left to do, and where
(R100). -/
theorem parseVorbisComment_holds {vendor : List Byte} {comments : List (List Byte)} {more : Nat} {s : State}
    (hlt : comments.length + more < 2 ^ 32)
    (h : s.Holds (vorbisCommentBytes vendor (comments.length + more) comments)) :
    parseVorbisComment s =
      (countLoop lstrLE more >>= fun rest => update (State.setBlk (.vorbisComment ⟨vendor, comments ++ rest⟩)))
        (s.moved (vorbisCommentBytes vendor (comments.length + more) comments).length
          ((comments.getLast?.map fun b => BitVec.ofNat 64 b.length).getD (BitVec.ofNat 64 (comments.length + more)))
          (BitVec.ofNat 32 more) (BitVec.ofNat 32 (comments.getLast?.getD vendor).length)) := by
  have hc := h.ahead.cursor_le (vorbisCommentBytes_ne_nil _ _ _)
  have hprefixes := h.left
  have hcnt : BitVec.ofNat 32 (comments.length + more) - BitVec.ofNat 32 comments.length = BitVec.ofNat 32 more := by
    rw [BitVec.ofNat_add, BitVec.add_comm, BitVec.add_sub_cancel]
  rw [parseVorbisComment, op_bind_ok (lstrLE_holds hprefixes.left hc),
    op_bind_ok (readLE_holds (w := .w32) hlt (hprefixes.right rfl _ _ _) (hprefixes.inside hc (by simp) _ _ _))]
  simp only [update_bind, look_bind, moved_moved, moved_setCnt, moved_cnt, moved_len, ofNat_toNat_lt hlt, countLoop_add,
    bind_assoc, pure_bind]
  rw [op_bind_ok (countLoop_lstrLE_holds (h.right (by simp [Width.bytes]) _ _ _)
    (hprefixes.inside hc (by simp [Width.bytes]) _ _ _))]
  simp [hcnt, vorbisCommentBytes, Width.bytes, Nat.add_assoc]

/-- Every string has a length word, so there are fewer comments in a window than 32 bits can count (R59). -/
theorem State.Holds.comments_lt {s : State} {vendor : List Byte} {count : Nat} {comments : List (List Byte)}
    (h : s.Holds (vorbisCommentBytes vendor count comments)) : comments.length < 2 ^ 32 := by
  have hlen := h.length_lt
  rw [length_vorbisCommentBytes, List.sum_map_add] at hlen
  simp only [List.map_const', List.sum_replicate, smul_eq_mul] at hlen
  omega

/-- The parser on a whole body reads the record back (R100). -/
theorem parseVorbisComment_whole {vendor : List Byte} {comments : List (List Byte)} {s : State}
    (h : s.Holds (vorbisCommentBytes vendor comments.length comments)) :
    parseVorbisComment s = .ok ((), (s.moved (vorbisCommentBytes vendor comments.length comments).length
      (BitVec.ofNat 64 (comments.getLast?.getD []).length) 0
      (BitVec.ofNat 32 (comments.getLast?.getD vendor).length)).setBlk (.vorbisComment ⟨vendor, comments⟩)) := by
  have hacc : (comments.getLast?.map fun b => BitVec.ofNat 64 b.length).getD (BitVec.ofNat 64 comments.length) =
      BitVec.ofNat 64 (comments.getLast?.getD []).length := by
    obtain rfl | ⟨init, last, rfl⟩ := comments.eq_nil_or_concat
    · rfl
    · simp
  rw [parseVorbisComment_holds (more := 0) h.comments_lt h, Nat.add_zero, hacc]
  simp [countLoop]

/-- The parser on a whole body reads those bytes and no more of the window (R100). -/
theorem parseVorbisComment_fieldsRead {vendor : List Byte} {comments : List (List Byte)} {s : State}
    (h : s.Holds (vorbisCommentBytes vendor comments.length comments)) :
    FieldsRead [(vorbisCommentBytes vendor comments.length comments).length] s (parseVorbisComment s) := by
  have hfits : s.fieldFailure [(vorbisCommentBytes vendor comments.length comments).length] = none :=
    fieldFailure_eq_none h.fits (h.ahead.fits (vorbisCommentBytes_ne_nil _ _ _))
  refine ⟨fun _ => ⟨_, _, parseVorbisComment_whole h, ?_⟩, fun _ _ hfail => ?_⟩
  · exact (readPast_moved h.body h.fits _ _ _).trans (readPast_setBlk _ _)
  · cases hfits.symm.trans hfail

/-- A length word that finds fewer than four bytes left of the body (R70, R101). -/
theorem lstrLE_overread {s : State} (hp : s.phase = .body) (hw : s.bodyRem.toNat < 4) :
    lstrLE s = .error (s.failureEntry (.format .bodyOverread) 4) :=
  op_bind_error (op_bind_error (take_overread hp hw) _) _

/-- With strings still counted after `comments` and no room for a length word, the next one is the over-read (R100). -/
theorem parseVorbisComment_overcount {vendor : List Byte} {comments : List (List Byte)} {more : Nat} {s : State}
    (hlt : comments.length + (more + 1) < 2 ^ 32)
    (h : s.Holds (vorbisCommentBytes vendor (comments.length + (more + 1)) comments))
    (hw : s.bodyRem.toNat - (vorbisCommentBytes vendor (comments.length + (more + 1)) comments).length < 4) :
    ∃ e, parseVorbisComment s = .error e ∧ FailedFrom s e (.format .bodyOverread) 4 := by
  have hpast := readPast_moved h.body h.fits
    ((comments.getLast?.map fun b => BitVec.ofNat 64 b.length).getD (BitVec.ofNat 64 (comments.length + (more + 1))))
    (BitVec.ofNat 32 (more + 1)) (BitVec.ofNat 32 (comments.getLast?.getD vendor).length)
  have hnext := lstrLE_overread (hpast.phase.trans h.body) (hpast.rem ▸ hw)
  rw [parseVorbisComment_holds hlt h, countLoop, op_bind_error (op_bind_error hnext _)]
  exact ⟨_, rfl, hpast.failedFrom (failedFrom_failureEntry _ _ _)⟩

/-! ### The whole block -/

/-- A failure inside the parser is the failure of the whole block (R114). -/
theorem runIn_decodeBlock_error {t : BitVec 7} {isLast : Bool} {length : BitVec 24} {s : State} {parser : Op Unit}
    {reason : Reason} {info : BitVec 32} (hp : s.phase = .header)
    (h : ∃ e, parser (s.setHdr ⟨isLast, t, length⟩).enterBody = .error e ∧
      FailedFrom (s.setHdr ⟨isLast, t, length⟩).enterBody e reason info) :
    ∃ u, runIn .header (decodeBlock t isLast length parser) s = .next u ∧ FailedFrom s u reason info := by
  obtain ⟨e, he, hfail⟩ := h
  refine ⟨e, runIn_error hp ?_, hfail.err, hfail.phase, hfail.blk, hfail.inp, hfail.evt, hfail.pay, hfail.sinkHeld⟩
  rw [decodeBlock_apply, op_bind_error he]

/-- A body that holds the parser's bytes, in the window DISPATCH opens. -/
theorem holds_vorbisComment {vendor : List Byte} {count : Nat} {comments : List (List Byte)} {isLast : Bool}
    {length : BitVec 24} {s : State} (ha : s.ahead (vorbisCommentBytes vendor count comments))
    (hw : 8 + vendor.length + (comments.map fun c => 4 + c.length).sum ≤ length.toNat) :
    (s.setHdr ⟨isLast, 4, length⟩).enterBody.Holds (vorbisCommentBytes vendor count comments) :=
  holds_enterBody ha (by rwa [length_vorbisCommentBytes])

/-- Settles O27: the parser reads the record back from its bytes, which fill the window. -/
theorem vorbisCommentReportsItsStrings : Obligations.VorbisCommentReportsItsStrings := by
  intro vendor comments isLast length s hp hn ha
  have ha : s.ahead (vorbisCommentBytes vendor comments.length comments) := ha
  have hrun := parseVorbisComment_whole (holds_vorbisComment (isLast := isLast) ha hn.ge)
  rw [length_vorbisCommentBytes, ← hn] at hrun
  exact runIn_decodeBlock_closes hp hrun

/-- Settles O28: with the count right, CLOSE finds the excess; with the count too large, the next length word
finds fewer than four bytes of the window left. -/
theorem vorbisCommentMustFillItsBody : Obligations.VorbisCommentMustFillItsBody := by
  intro vendor comments count isLast length s hp hcount ha used
  have ha : s.ahead (vorbisCommentBytes vendor count comments) := ha
  have hlen : (vorbisCommentBytes vendor count comments).length = used := length_vorbisCommentBytes ..
  refine ⟨?_, fun hmore hw hend => ?_⟩
  · rintro rfl hw
    have hfields := hlen ▸ parseVorbisComment_fieldsRead (holds_vorbisComment (isLast := isLast) ha hw.le)
    exact runIn_decodeBlock_underreads hp hfields hw (hlen ▸ ha.fits (vorbisCommentBytes_ne_nil _ _ _))
  · obtain ⟨more, rfl⟩ : ∃ more, count = comments.length + (more + 1) :=
      Nat.exists_eq_add_of_lt hmore
    have hleft : length.toNat - used < 4 := by omega
    exact runIn_decodeBlock_error hp
      (parseVorbisComment_overcount hcount (holds_vorbisComment ha hw) (hlen ▸ hleft))

end Sys2Proof.Machine
end

section
/-! PICTURE (R60, R105 to R109): the type is checked before anything else is read; the payload is handed over once all
its bytes are read, and only then does CLOSE decide about the record. -/

namespace Sys2Proof.Machine

/-! ### The picture type (R63, R106) -/

theorem checkCategory_of_le {t : Nat} (h : t ≤ Config.picTypeMax) : checkCategory t = pure () := if_neg h.not_gt

theorem checkCategory_of_gt {t : Nat} (h : Config.picTypeMax < t) :
    checkCategory t = raise (.format .badPictureType) (BitVec.ofNat 32 t) := if_pos h

/-- The parser on an unknown type: its four bytes are all that is read (R106). -/
theorem parsePicture_unknownType {ty : BitVec 32} {s : State} (hty : Config.picTypeMax < ty.toNat)
    (h : s.Holds (beBytes 4 ty.toNat)) :
    ∃ e, parsePicture s = .error e ∧ FailedFrom s e (.format .badPictureType) ty := by
  have hc := h.ahead.cursor_le (by simp [beBytes])
  have hread := readBE_holds (w := .w32) ty.isLt h hc
  have hpast := readPast_moved h.body h.fits (BitVec.ofNat 64 ty.toNat) s.cnt s.len
  rw [length_beBytes] at hpast
  rw [parsePicture, op_bind_ok hread, checkCategory_of_gt hty, raise_bind, BitVec.ofNat_toNat, BitVec.setWidth_eq]
  exact ⟨_, rfl, hpast.failedFrom (failedFrom_failureEntry _ _ _)⟩

/-- Settles O30: the parser fails at the check of the type. -/
theorem unknownPictureTypeFails : Obligations.UnknownPictureTypeFails := fun _ _ _ _ hp hty hw ha =>
  runIn_decodeBlock_error hp (parsePicture_unknownType hty (holds_enterBody ha hw))

/-! ### The parser on a whole body -/

/-- A prefixed string, and then the rest of the body (R107). -/
theorem lstrBE_bind_holds {α : Type} {b rest : List Byte} {s : State} (h : s.Holds (lstrBEBytes b ++ rest))
    (hc : s.cursor ≤ s.inp.length) (f : List Byte → Op α) :
    ∃ u, u = s.moved (4 + b.length) (BitVec.ofNat 64 b.length) s.cnt (BitVec.ofNat 32 b.length) ∧
      (lstrBE >>= f) s = f b u ∧ u.Holds rest ∧ u.cursor ≤ u.inp.length := by
  have hlen : 4 + b.length = (lstrBEBytes b).length := (length_lstrBEBytes b).symm
  refine ⟨_, rfl, ?_, h.right hlen _ _ _, h.inside hc (by simp) _ _ _⟩
  rw [op_bind_ok (lstrBE_holds h.left hc), hlen]

/-- SKIP, on bytes that are there (R74). -/
theorem skip_holds {b : List Byte} {n : Nat} {s : State} (h : s.Holds b) (hc : s.cursor ≤ s.inp.length)
    (hn : n = b.length) : skip n s = .ok ((), s.moved n s.acc s.cnt s.len) :=
  op_bind_ok (take_holds_of_length h hc hn) _

/-- The payload's length word and bytes are one more prefixed string (R105, R107). -/
theorem parsePicture_eq : parsePicture = (do
    let t ← readBE .w32
    checkCategory t
    let mime ← lstrBE
    let description ← lstrBE
    skip Config.geometryBytes
    let payload ← lstrBE
    let payloadLength ← look State.len
    let ref ← memWritePay payload
    update (State.setBlk (.picture ⟨BitVec.ofNat 32 t, mime, description, payloadLength, ref⟩))) := by
  simp only [parsePicture, lstrBE, bind_assoc]

/-- `s` after the payload handoff: one payload more on PAY, for one draw, and the sink released (R48, R109). -/
def State.handedOver (payload : List Byte) (s : State) : State := ((s.holdSink true).payOut payload).holdSink false

/-- The record of the fields of a Picture read from `s`: its reference is the sink's answer to the payload (R109). -/
def State.pictureRec (s : State) (ty : BitVec 32) (mime description payload : List Byte) : PictureRec :=
  ⟨ty, mime, description, BitVec.ofNat 32 payload.length, Config.paySink s.draws payload⟩

section
variable {ty : BitVec 32} {mime description geometry payload : List Byte}

/-- The parser on the bytes of a record: it reads them all, hands the payload over, and leaves the record in BLK (R60,
R105, R109). -/
theorem parsePicture_holds {s : State} (hty : ty.toNat ≤ Config.picTypeMax)
    (hg : geometry.length = Config.geometryBytes)
    (h : s.Holds ((s.pictureRec ty mime description payload).bytes geometry payload)) :
    parsePicture s = .ok ((), ((s.moved (32 + mime.length + description.length + payload.length)
      (BitVec.ofNat 64 payload.length) s.cnt (BitVec.ofNat 32 payload.length)).handedOver payload).setBlk
      (.picture (s.pictureRec ty mime description payload))) := by
  have hc := h.ahead.cursor_le (by simp [PictureRec.bytes, beBytes])
  have hsum : 4 + (4 + mime.length) + (4 + description.length) + 16 + (4 + payload.length) =
      32 + mime.length + description.length + payload.length := by omega
  simp only [PictureRec.bytes, State.pictureRec, List.append_assoc] at h
  rw [parsePicture_eq]
  obtain ⟨_, rfl, hrun, h, hc⟩ := readBE_bind_holds (w := .w32) (k := 32) rfl h hc _
  rw [hrun, checkCategory_of_le hty, pure_bind]
  obtain ⟨_, rfl, hrun, h, hc⟩ := lstrBE_bind_holds h hc _
  rw [hrun]
  obtain ⟨_, rfl, hrun, h, hc⟩ := lstrBE_bind_holds h hc _
  rw [hrun, op_bind_ok (skip_holds h.left hc hg.symm),
    op_bind_ok (lstrBE_holds (h.right hg.symm _ _ _) (h.inside hc (by simp [hg]) _ _ _)), look_bind,
    op_bind_ok (memWritePay_apply payload _), update_apply]
  simp only [moved_moved, moved_draws, moved_len, moved_cnt, Width.bytes, Config.geometryBytes, length_lstrBEBytes,
    hsum, BitVec.ofNat_toNat, BitVec.setWidth_eq, State.handedOver, State.pictureRec]

/-! ### The whole block -/

/-- A PICTURE whose body holds a record's bytes reaches CLOSE, with the payload delivered and the rest of the window
left (R109). -/
theorem decodeBlock_picture_holds {isLast : Bool} {length : BitVec 24} {s : State}
    (hty : ty.toNat ≤ Config.picTypeMax) (hg : geometry.length = Config.geometryBytes)
    (hw : 32 + mime.length + description.length + payload.length ≤ length.toNat)
    (ha : s.ahead ((s.pictureRec ty mime description payload).bytes geometry payload)) :
    decodeBlock 6 isLast length parsePicture s = close { s with
      hdr := ⟨isLast, 6, length⟩, phase := .body, blk := .picture (s.pictureRec ty mime description payload)
      cursor := s.cursor + (32 + mime.length + description.length + payload.length)
      bodyRem := length - BitVec.ofNat 24 (32 + mime.length + description.length + payload.length)
      acc := BitVec.ofNat 64 payload.length, len := BitVec.ofNat 32 payload.length
      pay := s.pay ++ [payload], draws := s.draws + 1, sinkHeld := false } := by
  have hbody : (s.setHdr ⟨isLast, 6, length⟩).enterBody.Holds _ :=
    holds_enterBody ha ((length_picture_bytes _ payload hg).trans_le hw)
  have hrun := parsePicture_holds (s := (s.setHdr ⟨isLast, 6, length⟩).enterBody) hty hg hbody
  rw [decodeBlock_apply, op_bind_ok hrun]
  rfl

end

/-- Settles O29: the record's bytes fill the window, so CLOSE finds it empty. -/
theorem pictureReportsAndHandsOver : Obligations.PictureReportsAndHandsOver := by
  intro ty mime description geometry payload isLast length s hp hty hg hn ha
  have hrun := decodeBlock_picture_holds (isLast := isLast) hty hg hn.ge ha
  have hrem : length - BitVec.ofNat 24 length.toNat = 0 := by simp
  rw [← hn, hrem, close_ok rfl] at hrun
  exact runIn_ok hp hrun

/-- Settles O31: the record's bytes leave the excess in the window, which CLOSE finds after the handoff. -/
theorem pictureHandsOverBeforeClose : Obligations.PictureHandsOverBeforeClose := by
  intro ty mime description geometry payload isLast length s hp hty hg hn ha
  have hrun := decodeBlock_picture_holds (isLast := isLast) hty hg hn.le ha
  generalize 32 + mime.length + description.length + payload.length = used at hn hrun ⊢
  have hrem : (length - BitVec.ofNat 24 used).toNat = length.toNat - used := by
    have := length.isLt
    rw [BitVec.toNat_sub, BitVec.toNat_ofNat]
    omega
  have hne : length - BitVec.ofNat 24 used ≠ 0 := by
    intro hz
    rw [hz] at hrem
    exact absurd hrem.symm (Nat.sub_ne_zero_of_lt hn)
  rw [close_underread hne] at hrun
  refine ⟨_, runIn_error hp hrun, rfl, ?_, rfl, rfl, rfl, rfl, rfl⟩
  rw [← hrem, BitVec.ofNat_toNat]
  rfl

end Sys2Proof.Machine
end

section
/-! Which phase enables what (R80, R113, R114): an instruction answers in the phase of its slot and in no other, and a
step is the instruction that the phase and the bytes at the cursor name. -/

namespace Sys2Proof.Machine

/-- Settles O33: SIG passes or fails, and a block instruction closes its block or fails. -/
theorem enabledInstructionsComplete : Obligations.EnabledInstructionsComplete := by
  intro i s hp
  obtain rfl | hi := eq_sig_or_slot_eq_header i
  · obtain ⟨-, h⟩ | ⟨t, -, -, h, -⟩ := exec_sig_cases hp
    · exact ⟨_, h⟩
    · exact ⟨t, h⟩
  · rw [hi] at hp
    obtain ⟨t, h, -⟩ := exec_header_cases i hi hp
    exact ⟨t, h⟩

/-- Settles O34: every instruction is an operation that is run in the phase of its slot only. -/
theorem disabledInstructionsStop : Obligations.DisabledInstructionsStop := by
  intro i s hp
  cases i with
  | sig => exact runIn_disabled sigCheck hp
  | streaminfo | padding | seektable | vorbiscomment | picture => exact runIn_disabled (decodeBlock _ _ _ _) hp
  | _ => exact runIn_disabled (rejectBlock _ _ _ _) hp

/-- Settles O39: the header slot decodes the bytes at the cursor to the step's own instruction. -/
theorem stepRunsTheDecodedInstruction : Obligations.StepRunsTheDecodedInstruction := by
  refine fun s hwf => ⟨step_of_sig hwf, fun i rest hp hdec => ?_⟩
  by_cases hn : (s.inp.drop s.cursor).length < 4
  · rw [decode_of_short hn] at hdec
    cases hdec
  · rw [decode_header (not_lt.1 hn)] at hdec
    cases hdec
    rw [List.length_drop] at hn
    exact step_of_header hwf hp (by omega)

/-- Settles O41: past the check of the stream's length, a step looks at the phase, and these three enable nothing. -/
theorem endedDecodeTakesNoStep : Obligations.EndedDecodeTakesNoStep := by
  intro s hwf
  have hlong : s.inp.wf ≠ false := by simp [wf_of_lt hwf]
  refine ⟨fun hp => ?_, fun hp => ?_, fun hp => ?_⟩ <;> rw [step, if_neg hlong, hp]

/-! ### The signature check (R113) -/

/-- With four bytes there, all of them are obtained before they are compared (log 20). -/
theorem sigCheck_of_ahead {s : State} {b : List Byte} (hp : s.phase = .sig) (hl : b.length = 4) (ha : s.ahead b) :
    sigCheck s = (if b = Config.signature then update (State.setPhase .header)
      else raise (.format .badSignature) (BitVec.ofNat 32 (beNat b)) : Op Unit) (s.advance 4) := by
  have hread := take_ok (s := s) (n := 4) (by simp [hp]) (hl ▸ ha.fits (by rintro rfl; simp at hl))
  have htake : (s.inp.drop s.cursor).take 4 = b := hl ▸ ha.take_eq
  rw [htake] at hread
  exact op_bind_ok hread _

theorem sigCheck_of_signature {s : State} (hp : s.phase = .sig) (ha : s.ahead Config.signature) :
    sigCheck s = .ok ((), (s.advance 4).setPhase .header) := sigCheck_of_ahead hp rfl ha

theorem sigCheck_of_other {s : State} {b : List Byte} (hp : s.phase = .sig) (hl : b.length = 4) (ha : s.ahead b)
    (hb : b ≠ Config.signature) :
    sigCheck s = .error ((s.advance 4).failureEntry (.format .badSignature) (BitVec.ofNat 32 (beNat b))) := by
  rw [sigCheck_of_ahead hp hl ha, if_neg hb, raise_apply]

theorem sigCheck_truncated {s : State} (hp : s.phase = .sig) (hn : s.inp.length < s.cursor + 4) :
    sigCheck s = .error (s.failureEntry (.truncated .inSignature) 0) := by
  have hread := take_truncated (by simp [hp]) hn
  rw [hp] at hread
  exact op_bind_error hread _

/-- Settles O16: outside a body a read moves CURSOR alone. -/
theorem signaturePasses : Obligations.SignaturePasses := by
  intro s hp ha
  refine (runIn_ok hp (sigCheck_of_signature hp ha)).trans ?_
  simp [State.advance, State.setPhase, hp]

/-- Four bytes side by side are their big-endian word (R71). -/
theorem ofNat_beNat_four (b0 b1 b2 b3 : Byte) : BitVec.ofNat 32 (beNat [b0, b1, b2, b3]) = b0 ++ b1 ++ b2 ++ b3 := by
  refine BitVec.eq_of_toNat_eq ((toNat_wordOfBytes_cons b0 b1 b2 b3 []).trans ?_)
  simp only [BitVec.toNat_append, ← Nat.shiftLeft_add_eq_or_of_lt (BitVec.isLt _)]
  omega

/-- Settles O17: four other bytes are compared and refused with their word; with fewer, the read fails before any byte
is compared. -/
theorem badOrShortSignatureFails : Obligations.BadOrShortSignatureFails := by
  refine fun s hp => ⟨fun b0 b1 b2 b3 ha hb => ?_, fun hn => ?_⟩
  · refine ⟨_, runIn_error hp (sigCheck_of_other hp rfl ha hb), ?_⟩
    rw [ofNat_beNat_four]
    exact ⟨rfl, rfl, rfl, rfl, rfl, rfl, rfl⟩
  · exact ⟨_, runIn_error hp (sigCheck_truncated hp hn), failedFrom_failureEntry s _ _⟩

end Sys2Proof.Machine
end

section
/-! The end of every decode (R118): each step leaves fewer steps to come, and a sound state that has not ended takes one. -/

namespace Sys2Proof.Machine

/-- R118's count of the steps still to come: a header takes at least four bytes, and the step after the last header that
is there fails. -/
def State.stepsLeft (s : State) : Nat :=
  match s.phase with
  | .sig => if s.inp.length < 4 then 1 else 2 + (s.inp.length - 4) / 4
  | .header => 1 + (s.inp.length - s.cursor) / 4
  | .body | .done | .failed => 0

section
variable {s t : State}

theorem stepsLeft_of_sig (h : s.phase = .sig) :
    s.stepsLeft = if s.inp.length < 4 then 1 else 2 + (s.inp.length - 4) / 4 := by simp [State.stepsLeft, h]

theorem stepsLeft_of_header (h : s.phase = .header) : s.stepsLeft = 1 + (s.inp.length - s.cursor) / 4 := by
  simp [State.stepsLeft, h]

theorem stepsLeft_of_ended (h : s.ended) : s.stepsLeft = 0 := by
  obtain h | h := h <;> simp [State.stepsLeft, h]

/-- In SIG and in HEADER the decode has a step to come. -/
theorem stepsLeft_pos (h : s.phase = .sig ∨ s.phase = .header) : 0 < s.stepsLeft := by
  obtain h | h := h
  · rw [stepsLeft_of_sig h]
    split <;> omega
  · rw [stepsLeft_of_header h]
    omega

/-- A sound state has no more steps to come than R118 allows its stream. -/
theorem Inv.stepsLeft_le (h : Inv s) :
    s.stepsLeft ≤ if s.inp.length < 4 then 1 else 2 + (s.inp.length - 4) / 4 := by
  cases hp : s.phase with
  | sig => exact (stepsLeft_of_sig hp).le
  | header =>
    obtain ⟨hcur, hle⟩ := h.framing (.inl hp)
    rw [stepsLeft_of_header hp, if_neg (by omega)]
    omega
  | body => exact absurd hp h.resting
  | done => simp [stepsLeft_of_ended (.inl hp)]
  | failed => simp [stepsLeft_of_ended (.inr hp)]

/-- Every step of a sound state leaves fewer steps to come (R118). -/
theorem Inv.stepsLeft_lt (hi : Inv s) (h : step s = .next t) : t.stepsLeft < s.stepsLeft := by
  have hpos := stepsLeft_pos (step_enabled h)
  obtain ⟨hinp, hmove, -⟩ := stepsMoveForward s t h
  cases hp : t.phase with
  | header =>
    obtain ⟨hforward, hinside⟩ := hmove (by simp [hp])
    rw [hinp] at hinside
    rw [stepsLeft_of_header hp, hinp]
    obtain hs | hs := step_enabled h
    · rw [(hi.atStart hs).1] at hforward
      rw [stepsLeft_of_sig hs, if_neg (by omega)]
      omega
    · rw [stepsLeft_of_header hs]
      omega
  | sig => simpa [hp] using phaseTransitionsAreTheTables s t h
  | body => simpa [hp] using phaseTransitionsAreTheTables s t h
  | done => rwa [stepsLeft_of_ended (.inl hp)]
  | failed => rwa [stepsLeft_of_ended (.inr hp)]

/-- In SIG and in HEADER a step answers a next state (R114). -/
theorem exists_step (hwf : s.inp.length < 2 ^ 64) (hp : s.phase = .sig ∨ s.phase = .header) :
    ∃ t, step s = .next t := by
  obtain hp | hp := hp
  · rw [step_of_sig hwf hp]
    exact enabledInstructionsComplete .sig s hp
  · by_cases hn : s.cursor + 4 ≤ s.inp.length
    · rw [step_of_header hwf hp hn]
      obtain ⟨t, h, -⟩ := exec_header_cases (nextInstr s) (slot_decodeHeaderWord _) (s := fetched s) hp
      exact ⟨t, h⟩
    · exact ⟨_, step_of_missing_header hwf hp (not_le.1 hn)⟩

theorem Inv.ended_or_enabled (h : Inv s) : s.ended ∨ s.phase = .sig ∨ s.phase = .header := by
  cases hp : s.phase with
  | sig => exact .inr (.inl rfl)
  | header => exact .inr (.inr rfl)
  | body => exact absurd hp h.resting
  | done => exact .inl (.inl hp)
  | failed => exact .inl (.inr hp)

/-! ### Runs -/

theorem run_zero (s : State) : Host.Core.run core 0 s = .next s := rfl

theorem run_succ (h : step s = .next t) (k : Nat) : Host.Core.run core (k + 1) s = Host.Core.run core k t := by
  have hcore : core.step s = .next t := h
  simp only [Host.Core.run, hcore]

/-- A sound state's decode ends within the steps it has left. -/
theorem Inv.run_ends (n : Nat) (hi : Inv s) (hn : s.stepsLeft ≤ n) :
    ∃ k t, k ≤ n ∧ Host.Core.run core k s = .next t ∧ t.ended := by
  induction n generalizing s with
  | zero =>
    have hend := hi.ended_or_enabled.resolve_right fun hp => absurd (stepsLeft_pos hp) (by omega)
    exact ⟨0, s, Nat.le_refl 0, run_zero s, hend⟩
  | succ n ih =>
    obtain hend | hp := hi.ended_or_enabled
    · exact ⟨0, s, Nat.zero_le _, run_zero s, hend⟩
    · obtain ⟨t, h⟩ := exists_step hi.streamFits hp
      have hlt := hi.stepsLeft_lt h
      obtain ⟨k, u, hk, hrun, hend⟩ := ih (stepKeepsSoundness s t hi h) (by omega)
      exact ⟨k + 1, u, by omega, (run_succ h k).trans hrun, hend⟩

end

/-- Settles O50: the steps left are within R118's bound. -/
theorem everyDecodeEnds : Obligations.EveryDecodeEnds := fun _ hi => hi.run_ends _ hi.stepsLeft_le

end Sys2Proof.Machine
end

section
/-! The reference function of R116, operation by operation: the machine's operations and the reference function's go
through the same bytes, answer the same values, and fail for the same reason with the same outputs. -/

namespace Sys2Proof.Machine

/-! ### Sequencing in the reference function -/

section
variable {α β : Type} {v w : RefVars}

theorem ref_bind_ok {x : Ref116 α} {a : α} (h : x v = .ok (a, w)) (f : α → Ref116 β) : (x >>= f) v = f a w := by
  show (StateT.bind x f) v = _
  simp [StateT.bind, bind, Except.bind, h]

theorem ref_bind_error {x : Ref116 α} {e : Reason × BitVec 32 × RefVars} (h : x v = .error e) (f : α → Ref116 β) :
    (x >>= f) v = .error e := by
  show (StateT.bind x f) v = _
  simp [StateT.bind, bind, Except.bind, h]

@[simp] theorem refFail_apply (r : Reason) (i : BitVec 32) : (refFail r i : Ref116 α) v = .error (r, i, v) := rfl

@[simp] theorem refFail_bind (r : Reason) (i : BitVec 32) (f : α → Ref116 β) :
    ((refFail r i : Ref116 α) >>= f) = refFail r i := rfl

@[simp] theorem refSet_bind (g : RefVars → RefVars) (f : Unit → Ref116 β) : (refSet g >>= f) v = f () (g v) := rfl

@[simp] theorem refVars_bind (f : RefVars → Ref116 β) : (refVars >>= f) v = f v v := rfl

@[simp] theorem ref_pure (a : α) : (pure a : Ref116 α) v = .ok (a, v) := rfl

end

/-! ### One point of a decode, seen from both sides -/

/-- The machine in `s`, in phase `p`, and the reference function with variables `v` are at one point of the decode of
`S`: they stand at one cursor in one window and have put out the same; `first` is the number of the first draw. -/
structure Mirrors (S : List Byte) (first : Nat) (p : Phase) (s : State) (v : RefVars) : Prop where
  inp : s.inp = S
  phase : s.phase = p
  cursor : v.cur = s.cursor
  rem : v.rem = if p = .body then some s.bodyRem.toNat else none
  evt : v.out = s.evt
  pay : v.pay = s.pay
  draws : s.draws = first + s.pay.length

/-- A machine operation and a part of the reference function end alike: in one point, with answers that `Q` accepts; or
both fail, for one reason and with one info word, the outputs being the same. -/
inductive EndAlike {α β : Type} (M : State → RefVars → Prop) (Q : α → State → β → Prop) :
    Except State (α × State) → Except (Reason × BitVec 32 × RefVars) (β × RefVars) → Prop where
  | ok {a : α} {t : State} {b : β} {w : RefVars} : M t w → Q a t b → EndAlike M Q (.ok (a, t)) (.ok (b, w))
  | error {u : State} {w : RefVars} (r : Reason) (i : BitVec 32) : w.out = u.evt → w.pay = u.pay →
      EndAlike M Q (.error (u.failureEntry r i)) (.error (r, i, w))

/-- `op` does in phase `p` what `ref` does in the reference function. -/
def Computes {α β : Type} (S : List Byte) (first : Nat) (p : Phase) (op : Op α) (ref : Ref116 β)
    (Q : α → State → β → Prop) : Prop :=
  ∀ s v, Mirrors S first p s v → EndAlike (Mirrors S first p) Q (op s) (ref v)

/-- Both sides answer the same value, of which `P` holds. -/
def Same {α : Type} (P : α → Prop) : α → State → α → Prop := fun a _ b => a = b ∧ P a

section
variable {S : List Byte} {first : Nat} {p : Phase} {s : State} {v : RefVars} {α β γ δ : Type}

/-- The point of the decode says nothing of the working registers and of BLK. -/
theorem Mirrors.of_eq {t : State} (h : Mirrors S first p s v) (hinp : t.inp = s.inp := by rfl)
    (hphase : t.phase = s.phase := by rfl) (hcursor : t.cursor = s.cursor := by rfl)
    (hrem : t.bodyRem = s.bodyRem := by rfl) (hevt : t.evt = s.evt := by rfl) (hpay : t.pay = s.pay := by rfl)
    (hdraws : t.draws = s.draws := by rfl) : Mirrors S first p t v where
  inp := hinp.trans h.inp
  phase := hphase.trans h.phase
  cursor := h.cursor.trans hcursor.symm
  rem := by rw [h.rem, hrem]
  evt := h.evt.trans hevt.symm
  pay := h.pay.trans hpay.symm
  draws := by rw [hdraws, hpay, h.draws]

theorem EndAlike.bind {M N : State → RefVars → Prop} {P : α → State → γ → Prop} {Q : β → State → δ → Prop} {x : Op α}
    {f : α → Op β} {y : Ref116 γ} {g : γ → Ref116 δ} (hx : EndAlike M P (x s) (y v))
    (hf : ∀ a t c w, M t w → P a t c → EndAlike N Q (f a t) (g c w)) :
    EndAlike N Q ((x >>= f) s) ((y >>= g) v) := by
  generalize hxs : x s = r, hyv : y v = q at hx
  cases hx with
  | ok hm hp =>
    rw [op_bind_ok hxs, ref_bind_ok hyv]
    exact hf _ _ _ _ hm hp
  | error r i he hpay =>
    rw [op_bind_error hxs, ref_bind_error hyv]
    exact .error r i he hpay

theorem Computes.bind {P : α → Prop} {Q : β → State → δ → Prop} {x : Op α} {f : α → Op β} {y : Ref116 α}
    {g : α → Ref116 δ} (hx : Computes S first p x y (Same P)) (hf : ∀ a, P a → Computes S first p (f a) (g a) Q) :
    Computes S first p (x >>= f) (y >>= g) Q := by
  refine fun s v h => (hx s v h).bind fun a t c w hm hs => ?_
  obtain ⟨rfl, ha⟩ := hs
  exact hf a ha t w hm

theorem Computes.pure {P : α → Prop} {a : α} (h : P a) :
    Computes S first p (Pure.pure a) (Pure.pure a) (Same P) := fun _ _ hm => .ok hm ⟨rfl, h⟩

theorem EndAlike.imp {M : State → RefVars → Prop} {P Q : α → State → γ → Prop} {r : Except State (α × State)}
    {q : Except (Reason × BitVec 32 × RefVars) (γ × RefVars)} (h : EndAlike M P r q)
    (hpq : ∀ a t c, r = .ok (a, t) → P a t c → Q a t c) : EndAlike M Q r q := by
  cases h with
  | ok hm hp => exact .ok hm (hpq _ _ _ rfl hp)
  | error r i he hpay => exact .error r i he hpay

/-- A write to a register that no point of a decode speaks of, before the rest. -/
theorem Computes.after {Q : β → State → δ → Prop} {f : State → State} {g : Unit → Op β} {y : Ref116 δ}
    (hg : Computes S first p (g ()) y Q)
    (hf : ∀ s v, Mirrors S first p s v → Mirrors S first p (f s) v := by exact fun _ _ h => h.of_eq) :
    Computes S first p (update f >>= g) y Q := fun s v h => hg (f s) v (hf s v h)

/-! ### The reader -/

/-- Take (R70): the same two checks in the same order. -/
theorem take_computes (n : Nat) :
    Computes S first p (take n) (refTake S (readPlace p) n) (Same fun b => b.length = n) := by
  intro s v h
  obtain rfl := h.inp
  have hover : v.rem.any (fun rem => rem < n) = true ↔ s.phase = .body ∧ s.bodyRem.toNat < n := by
    rw [h.rem, h.phase]
    by_cases hp : p = .body <;> simp [hp]
  have hfits (hw : s.phase = .body → n ≤ s.bodyRem.toNat) : ¬v.rem.any (fun rem => rem < n) = true :=
    fun hlt => (hw (hover.1 hlt).1).not_gt (hover.1 hlt).2
  rw [refTake]
  rcases take_cases n s with ⟨hw, hn, hrun⟩ | ⟨hp, hw, hrun⟩ | ⟨hw, hn, hrun⟩
  · rw [hrun, if_neg (hfits hw), h.cursor, if_neg hn.not_gt]
    refine .ok ⟨rfl, h.phase, rfl, ?_, h.evt, h.pay, h.draws⟩ ⟨rfl, length_window hn⟩
    rw [toNat_advance_bodyRem hw, h.rem, h.phase]
    by_cases hp : p = .body <;> simp [hp]
  · rw [hrun, if_pos (hover.2 ⟨hp, hw⟩)]
    exact .error _ _ h.evt h.pay
  · rw [hrun, if_neg (hfits hw), h.cursor, if_pos hn, h.phase]
    exact .error _ _ h.evt h.pay

/-- READ_BE (R71). -/
theorem readBE_computes (w : Width) :
    Computes S first p (readBE w) (refBE S (readPlace p) w.bytes) (Same (· < 256 ^ w.bytes)) :=
  (take_computes _).bind fun b hb => .after (.pure (hb ▸ beNat_lt b))

/-- READ_LE, which is used in bodies only (R72). -/
theorem readLE_computes (w : Width) :
    Computes S first .body (readLE w) (refLE S w.bytes) (Same (· < 256 ^ w.bytes)) :=
  (take_computes _).bind fun b hb => .after (.pure (hb ▸ leNat_lt b))

/-! ### The operand forms and the counted loop -/

/-- The string after its length word (R101, R107). -/
theorem stringOfLen_computes {n : Nat} (hn : n < 2 ^ 32) :
    Computes S first .body (stringOfLen n) (refTake S .inBody n) (Same fun _ => True) := by
  intro s v h
  have hread := take_computes n (s.setLen (BitVec.ofNat 32 n)) v h.of_eq
  simp only [stringOfLen, update_bind, look_bind, setLen_len, readBytes, ofNat_toNat_lt hn]
  exact hread.imp fun _ _ _ _ hs => ⟨hs.1, trivial⟩

/-- LSTR_LE (R101). -/
theorem lstrLE_computes : Computes S first .body lstrLE (refStringLE S) (Same fun _ => True) :=
  (readLE_computes .w32).bind fun _ hn => stringOfLen_computes hn

/-- LSTR_BE (R107). -/
theorem lstrBE_computes : Computes S first .body lstrBE (refStringBE S) (Same fun _ => True) :=
  (readBE_computes .w32).bind fun _ hn => stringOfLen_computes hn

/-- SKIP is a Take whose bytes are dropped (R74). -/
theorem skip_bind (n : Nat) (f : Unit → Op β) : (skip n >>= f) = take n >>= fun _ => f () := by
  simp only [skip, bind_assoc, pure_bind]

/-- The counted loop (R92, R100). -/
theorem countLoop_computes {item : Op α} {ref : Ref116 α}
    (hitem : Computes S first .body item ref (Same fun _ => True)) (n : Nat) :
    Computes S first .body (countLoop item n) (refRepeat ref n) (Same fun _ => True) := by
  induction n with
  | zero => exact .pure trivial
  | succ n ih => exact hitem.bind fun _ _ => .after (ih.bind fun _ _ => .pure trivial)

/-- One seek point (R92). -/
theorem readPoint_computes : Computes S first .body readPoint (refPoint S) (Same fun _ => True) :=
  (readBE_computes .w64).bind fun _ _ => (readBE_computes .w64).bind fun _ _ => (readBE_computes .w16).bind fun _ _ =>
    .pure trivial

/-! ### The parsers: the record they leave in BLK is the body the reference function answers -/

/-- The machine's answer is the record in BLK. -/
def RecordInBlk : Unit → State → Body → Prop := fun _ t body => t.blk = body

/-- The record is written when its last field has been read (log 11). -/
theorem setBlk_computes (body : Body) :
    Computes S first .body (update (State.setBlk body)) (Pure.pure body) RecordInBlk := fun _ _ h => .ok h.of_eq rfl

/-- CNT counts as many items as it was loaded with (R92, R100). -/
theorem counted_computes {item : Op α} {ref : Ref116 α}
    (hitem : Computes S first .body item ref (Same fun _ => True)) {n : Nat} (hn : n < 2 ^ 32) (rec : List α → Body) :
    Computes S first .body
      (update (State.setCnt (BitVec.ofNat 32 n)) >>= fun _ => look State.cnt >>= fun c =>
        countLoop item c.toNat >>= fun xs => update (State.setBlk (rec xs)))
      (refRepeat ref n >>= fun xs => Pure.pure (rec xs)) RecordInBlk := by
  intro s v h
  simp only [update_bind, look_bind, setCnt_cnt, ofNat_toNat_lt hn]
  exact (countLoop_computes hitem n).bind (fun _ _ => setBlk_computes _) _ _ h.of_eq

/-- The parser of type code `c`, from BLK empty, computes the reference function's body for that code. -/
def ParserComputes (S : List Byte) (first : Nat) (c : Nat) (parser : Op Unit) : Prop :=
  ∀ s v, Mirrors S first .body s v → s.blk = .empty →
    EndAlike (Mirrors S first .body) RecordInBlk (parser s) (refBody S Config.paySink first c s.hdr.length.toNat v)

theorem parseStreamInfo_computes : ParserComputes S first 0 parseStreamInfo := fun s v h _ =>
  ((readBE_computes .w16).bind fun _ _ => (readBE_computes .w16).bind fun _ _ => (readBE_computes .w24).bind fun _ _ =>
    (readBE_computes .w24).bind fun _ _ => (readBE_computes .w64).bind fun _ _ => (take_computes _).bind fun _ _ =>
      setBlk_computes _) s v h

theorem parsePadding_computes : ParserComputes S first 1 parsePadding := by
  intro s v h hb
  have hread : EndAlike (Mirrors S first .body) (fun _ _ body => body = .padding) (parsePadding s)
      (refBody S Config.paySink first 1 s.hdr.length.toNat v) :=
    (take_computes s.hdr.length.toNat s v h).bind fun _ _ _ _ hm _ => .ok hm rfl
  refine hread.imp fun _ t body hrun hbody => ?_
  have hkept : t.blk = s.blk := Keeps.look.bind (fun _ => skip_keeps _) s () t hrun
  exact (hkept.trans hb).trans hbody.symm

theorem parseSeekTable_computes : ParserComputes S first 3 parseSeekTable := by
  intro s v h _
  have hlt : s.hdr.length.toNat / Config.seekPointBytes < 2 ^ 32 :=
    Nat.lt_of_le_of_lt (Nat.div_le_self _ _) (Nat.lt_trans s.hdr.length.isLt (by decide))
  rw [parseSeekTable, look_bind]
  exact counted_computes readPoint_computes hlt (fun points => .seekTable ⟨points⟩) s v h

theorem parseVorbisComment_computes : ParserComputes S first 4 parseVorbisComment := fun s v h _ =>
  (lstrLE_computes.bind fun vendor _ => (readLE_computes .w32).bind fun _ hn =>
    counted_computes lstrLE_computes hn fun comments => .vorbisComment ⟨vendor, comments⟩) s v h

/-- The handoff and the record, the last part of the PICTURE parser: the draw that answers a payload is numbered by the
payloads before it (R109, log 7). -/
theorem handOff_computes (payload : List Byte) (rec : Ref → Body) :
    Computes S first .body (memWritePay payload >>= fun ref => update (State.setBlk (rec ref)))
      (refVars >>= fun v => refSet (fun v => { v with pay := v.pay ++ [payload] }) >>= fun _ =>
        Pure.pure (rec (Config.paySink (first + v.pay.length) payload))) RecordInBlk := by
  intro s v h
  rw [op_bind_ok (memWritePay_apply payload s), update_apply, refVars_bind, refSet_bind, ref_pure, h.pay, ← h.draws]
  exact .ok ⟨h.inp, h.phase, h.cursor, h.rem, h.evt, rfl, by simp [h.draws, Nat.add_assoc]⟩ rfl

theorem parsePicture_computes : ParserComputes S first 6 parsePicture := by
  intro s v h _
  simp only [parsePicture, stringOfLen_bind_look_len, skip_bind]
  refine (readBE_computes .w32).bind (fun ty _ => ?_) s v h
  by_cases hty : 20 < ty
  · rw [checkCategory_of_gt hty, if_pos hty]
    exact fun s v h => .error _ _ h.evt h.pay
  · rw [checkCategory_of_le (not_lt.1 hty), if_neg hty, pure_bind]
    exact lstrBE_computes.bind fun mime _ => lstrBE_computes.bind fun description _ => (take_computes _).bind fun _ _ =>
      (readBE_computes .w32).bind fun n hn => (stringOfLen_computes hn).bind fun payload _ =>
        handOff_computes payload fun ref => .picture ⟨BitVec.ofNat 32 ty, mime, description, BitVec.ofNat 32 n, ref⟩

end
end Sys2Proof.Machine
end

section
/-! The machine's run and the reference function (R116): each step is the signature check or one turn of R116's loop, and
the loop has turns enough for every stream. -/

namespace Sys2Proof.Machine

/-! ### The reference function, by its parts -/

/-- R116 after a body: the framing check, the record, and the last-flag as the turn's answer. -/
def refClose (isLast : Bool) (t length : Nat) (body : Body) : Ref116 Bool := fun v =>
  if v.rem = some 0 then
    .ok (isLast, { v with
      rem := none, out := v.out ++ [⟨isLast, BitVec.ofNat 7 t, BitVec.ofNat 24 length, body⟩] })
  else .error (.format .bodyUnderread, BitVec.ofNat 32 (v.rem.getD 0), v)

/-- R116 on a block of a type with a parser. -/
def refParsed (S : List Byte) (sink : Nat → List Byte → Ref) (first : Nat) (isLast : Bool) (t length : Nat) :
    Ref116 Bool := fun v =>
  (refBody S sink first t length >>= refClose isLast t length) { v with rem := some length }

/-- R116 after the header word. -/
def refDispatch (S : List Byte) (sink : Nat → List Byte → Ref) (first : Nat) (isLast : Bool) (t length : Nat) :
    Ref116 Bool :=
  if t = 2 then refFail (.unsupported .application) 2
  else if t = 5 then refFail (.unsupported .cuesheet) 5
  else if t = 127 then refFail (.unsupported .invalid) 127
  else if 7 ≤ t ∧ t ≤ 126 then refFail (.unsupported .reserved) (BitVec.ofNat 32 t)
  else refParsed S sink first isLast t length

/-- R116's signature check. -/
def refSignature (S : List Byte) : Ref116 Unit := do
  let b ← refTake S .inSignature 4
  if b = Config.signature then pure () else refFail (.format .badSignature) (BitVec.ofNat 32 (beNat b))

/-- What R116 answers, from how its computation ends. -/
def refAnswer : Except (Reason × BitVec 32 × RefVars) (Unit × RefVars) → RefOutcome × List Block × List (List Byte)
  | .ok (_, v) => (.done v.cur, v.out, v.pay)
  | .error (r, info, v) => (.failed r info, v.out, v.pay)

theorem refClose_eq (isLast : Bool) (t length : Nat) (body : Body) : refClose isLast t length body = (do
    let v ← refVars
    if v.rem ≠ some 0 then refFail (.format .bodyUnderread) (BitVec.ofNat 32 (v.rem.getD 0)) else pure ()
    refSet fun v => { v with
      rem := none
      out := v.out ++ [⟨isLast, BitVec.ofNat 7 t, BitVec.ofNat 24 length, body⟩] }
    pure isLast) := by
  funext v
  by_cases h : v.rem = some 0
  · simp only [refClose, refVars_bind, h, ne_eq, not_true_eq_false, if_true, if_false]
    rfl
  · simp only [refClose, refVars_bind, h, ne_eq, not_false_eq_true, if_true, if_false]
    rfl

section
variable (S : List Byte) (sink : Nat → List Byte → Ref) (first : Nat)

theorem refBlock_eq : refBlock S sink first = refBE S .inHeader 4 >>= fun w =>
    refDispatch S sink first (decide (w / 2 ^ 31 = 1)) (w / 2 ^ 24 % 128) (w % 2 ^ 24) := by
  refine bind_congr fun w => ?_
  simp only [refDispatch, refFail_bind]
  split_ifs
  · rfl
  · rfl
  · rfl
  · rfl
  · funext v
    simp only [refParsed, refSet_bind]
    exact congrFun (bind_congr fun body => (refClose_eq _ _ _ body).symm) _

theorem refRun_eq : refRun S sink first = refSignature S >>= fun _ => refLoop S sink first (S.length + 1) := by
  rw [refSignature, bind_assoc]
  refine bind_congr fun b => ?_
  by_cases h : b = Config.signature
  · rw [if_pos h]
    exact if_neg (not_not.2 h)
  · rw [if_neg h]
    exact if_pos h

theorem refDecode_eq : refDecode S sink first = refAnswer (refRun S sink first ⟨0, none, [], []⟩) := rfl
end

/-! ### One step, seen from both sides -/

/-- After a step the machine is in `t`, and the reference function's part of it ended in `r`: in one point of the decode,
in the phase the answer gives, or in one failure with one outcome. -/
inductive StepAgrees {β : Type} (S : List Byte) (first : Nat) (phaseAfter : β → Phase) (t : State) :
    Except (Reason × BitVec 32 × RefVars) (β × RefVars) → Prop where
  | next {b : β} {w : RefVars} : Mirrors S first (phaseAfter b) t w → StepAgrees S first phaseAfter t (.ok (b, w))
  | failed {r : Reason} {i : BitVec 32} {w : RefVars} : t.phase = .failed → t.observed = (.failed r i, w.out, w.pay) →
      StepAgrees S first phaseAfter t (.error (r, i, w))

section
variable {S : List Byte} {first : Nat} {s : State} {v : RefVars} {β : Type} {phaseAfter : β → Phase}

theorem StepAgrees.failureEntry {u : State} {w : RefVars} (r : Reason) (i : BitVec 32) (he : w.out = u.evt)
    (hpay : w.pay = u.pay) : StepAgrees S first phaseAfter (u.failureEntry r i) (.error (r, i, w)) := by
  refine .failed rfl ?_
  rw [he, hpay]
  rfl

/-- An operation run as one step (R114). -/
theorem runIn_agrees {p q : Phase} {op : Op Unit} {r : Except (Reason × BitVec 32 × RefVars) (β × RefVars)}
    (hp : s.phase = p) (h : EndAlike (Mirrors S first q) (fun _ _ b => phaseAfter b = q) (op s) r) :
    ∃ t, runIn p op s = .next t ∧ StepAgrees S first phaseAfter t r := by
  generalize hop : op s = o at h
  cases h with
  | ok hm hq => exact ⟨_, runIn_ok hp hop, .next (hq.symm ▸ hm)⟩
  | error r i he hpay => exact ⟨_, runIn_error hp hop, .failureEntry r i he hpay⟩

/-- The signature check (R113). -/
theorem sigCheck_computes (h : Mirrors S first .sig s v) :
    EndAlike (Mirrors S first .header) (fun _ _ _ => Phase.header = .header) (sigCheck s) (refSignature S v) := by
  refine (take_computes 4 s v h).bind fun b t c w hm hs => ?_
  obtain ⟨rfl, -⟩ := hs
  by_cases hb : b = Config.signature
  · rw [if_pos hb, if_pos hb]
    exact .ok ⟨hm.inp, rfl, hm.cursor, hm.rem, hm.evt, hm.pay, hm.draws⟩ rfl
  · rw [if_neg hb, if_neg hb]
    exact .error _ _ hm.evt hm.pay

/-- The header read (R80). -/
theorem fetchHeader_computes :
    Computes S first .header fetchHeader (refBE S .inHeader 4) fun w _ n => n = w.toNat := by
  rw [← bind_pure (refBE S .inHeader 4)]
  exact (readBE_computes .w32).bind fun n hn _ _ h => .ok h (ofNat_toNat_lt hn).symm

/-! ### Blocks -/

section
variable {c : BitVec 7} {isLast : Bool} {length : BitVec 24}

/-- CLOSE (R86): the framing check and the record. -/
theorem close_computes {body : Body} (h : Mirrors S first .body s v) (hblk : s.blk = body)
    (hhdr : s.hdr = ⟨isLast, c, length⟩) :
    EndAlike (Mirrors S first (phaseAfterClose isLast)) (fun _ _ b => phaseAfterClose b = phaseAfterClose isLast)
      (close s) (refClose isLast c.toNat length.toNat body v) := by
  have hrem : v.rem = some s.bodyRem.toNat := h.rem
  by_cases hz : s.bodyRem = 0
  · have hout : phaseAfterClose isLast ≠ .body := by cases isLast <;> decide
    rw [close_ok hz, refClose, if_pos (by simp [hrem, hz]), hblk, hhdr, BitVec.ofNat_toNat, BitVec.ofNat_toNat,
      BitVec.setWidth_eq, BitVec.setWidth_eq]
    exact .ok ⟨h.inp, rfl, h.cursor, (if_neg hout).symm, congrArg (· ++ _) h.evt, h.pay, h.draws⟩ rfl
  · have hne : v.rem ≠ some 0 := by
      rw [hrem, Ne, Option.some_inj]
      exact fun h0 => hz (BitVec.eq_of_toNat_eq h0)
    rw [close_underread hz, refClose, if_neg hne, hrem, Option.getD_some, BitVec.ofNat_toNat]
    exact .error _ _ h.evt h.pay

/-- A block of a type with a parser (R81, R86). -/
theorem decodeBlock_agrees {parser : Op Unit} (hparse : ParserComputes S first c.toNat parser) (hc : ParserOf c parser)
    (h : Mirrors S first .header s v) :
    ∃ t, runIn .header (decodeBlock c isLast length parser) s = .next t ∧ StepAgrees S first phaseAfterClose t
      (refParsed S Config.paySink first isLast c.toNat length.toNat v) := by
  refine runIn_agrees (q := phaseAfterClose isLast) h.phase ?_
  have hbody : Mirrors S first .body (s.setHdr ⟨isLast, c, length⟩).enterBody { v with rem := some length.toNat } :=
    ⟨h.inp, rfl, h.cursor, rfl, h.evt, h.pay, h.draws⟩
  have hparsed : EndAlike (Mirrors S first .body) (fun _ t body => t.blk = body ∧ t.hdr = ⟨isLast, c, length⟩)
      (parser (s.setHdr ⟨isLast, c, length⟩).enterBody) _ := (hparse _ _ hbody rfl).imp fun u t body hrun hblk => by
    have hends := hc _ hbody.phase rfl
    rw [hrun] at hends
    obtain ⟨bs, ps, hreads, -⟩ := hends
    exact ⟨hblk, hreads.hdr⟩
  rw [decodeBlock_apply]
  exact hparsed.bind fun _ t body w hm ⟨hblk, hhdr⟩ => close_computes hm hblk hhdr

/-- A block of a type without a parser (R82 to R85). -/
theorem rejectBlock_agrees (cause : UnsupportedCause) (h : Mirrors S first .header s v) :
    ∃ t, runIn .header (rejectBlock cause c isLast length) s = .next t ∧ StepAgrees S first phaseAfterClose t
      (.error (.unsupported cause, c.setWidth 32, v)) :=
  ⟨_, runIn_error h.phase (rejectBlock_apply cause c isLast length s), .failureEntry _ _ h.evt h.pay⟩

end

/-- The type codes, as DISPATCH tells them apart (R54, R81). -/
theorem code_cases (c : BitVec 7) : (c = 0 ∨ c = 1 ∨ c = 3 ∨ c = 4 ∨ c = 6) ∨ (c = 2 ∨ c = 5 ∨ c = 127) ∨
    7 ≤ c.toNat ∧ c.toNat ≤ 126 := by
  bv_omega

/-- DISPATCH (R81): every type code has the same meaning on both sides. -/
theorem dispatch_agrees (c : BitVec 7) (isLast : Bool) (length : BitVec 24) (h : Mirrors S first .header s v) :
    ∃ t, exec (instrOfCode c isLast length) s = .next t ∧ StepAgrees S first phaseAfterClose t
      (refDispatch S Config.paySink first isLast c.toNat length.toNat v) := by
  obtain (rfl | rfl | rfl | rfl | rfl) | (rfl | rfl | rfl) | ⟨hlo, hhi⟩ := code_cases c
  · exact decodeBlock_agrees parseStreamInfo_computes parseStreamInfo_parserOf h
  · exact decodeBlock_agrees parsePadding_computes parsePadding_parserOf h
  · exact decodeBlock_agrees parseSeekTable_computes parseSeekTable_parserOf h
  · exact decodeBlock_agrees parseVorbisComment_computes parseVorbisComment_parserOf h
  · exact decodeBlock_agrees parsePicture_computes parsePicture_parserOf h
  · exact rejectBlock_agrees .application h
  · exact rejectBlock_agrees .cuesheet h
  · exact rejectBlock_agrees .invalid h
  · have href : refDispatch S Config.paySink first isLast c.toNat length.toNat v =
        .error (.unsupported .reserved, c.setWidth 32, v) := by
      rw [refDispatch, if_neg (by omega), if_neg (by omega), if_neg (by omega), if_pos ⟨hlo, hhi⟩, BitVec.ofNat_toNat,
        refFail_apply]
    rw [exec_instrOfCode_reserved hlo hhi, href]
    exact rejectBlock_agrees .reserved h

/-! ### Steps and runs -/

theorem step_of_fetchHeader_ok {t : State} {w : BitVec 32} (hwf : s.inp.length < 2 ^ 64) (hp : s.phase = .header)
    (h : fetchHeader s = .ok (w, t)) : step s = exec (decodeHeaderWord w) t := by
  simp [step, wf_of_lt hwf, hp, h]

theorem step_of_fetchHeader_error {e : State} (hwf : s.inp.length < 2 ^ 64) (hp : s.phase = .header)
    (h : fetchHeader s = .error e) : step s = .next e := by
  simp [step, wf_of_lt hwf, hp, h]

/-- The last-flag is the word's highest bit, so it is all of the quotient (R53). -/
theorem hdrIsLast_eq_decide_div (w : BitVec 32) : hdrIsLast w = decide (w.toNat / 2 ^ 31 = 1) := by
  have := w.isLt
  rw [hdrIsLast_eq_decide]
  exact decide_eq_decide.2 (by omega)

/-- A step in HEADER is one turn of R116's loop. -/
theorem step_agrees_refBlock (hS : S.length < 2 ^ 64) (h : Mirrors S first .header s v) :
    ∃ t, step s = .next t ∧ StepAgrees S first phaseAfterClose t (refBlock S Config.paySink first v) := by
  have hwf : s.inp.length < 2 ^ 64 := h.inp.symm ▸ hS
  have hfetch := fetchHeader_computes s v h
  rw [refBlock_eq]
  generalize hrun : fetchHeader s = r, href : refBE S .inHeader 4 v = q at hfetch
  cases hfetch with
  | @ok w t n u hm hn =>
    subst hn
    rw [step_of_fetchHeader_ok hwf h.phase hrun, ref_bind_ok href, ← hdrIsLast_eq_decide_div, ← toNat_hdrLength]
    exact (toNat_hdrBlockType w) ▸ dispatch_agrees (hdrBlockType w) (hdrIsLast w) (hdrLength w) hm
  | error r i he hpay =>
    rw [ref_bind_error href]
    exact ⟨_, step_of_fetchHeader_error hwf h.phase hrun, .failureEntry r i he hpay⟩

/-- A run from HEADER ends as R116's loop does, if the loop has a turn for every four bytes left and one more. -/
theorem run_agrees_refLoop (hS : S.length < 2 ^ 64) (fuel : Nat) (h : Mirrors S first .header s v)
    (hfuel : S.length - s.cursor < 4 * fuel) : ∃ k t, Host.Core.run core k s = .next t ∧ t.ended ∧
      t.observed = refAnswer (refLoop S Config.paySink first fuel v) := by
  induction fuel generalizing s v with
  | zero => omega
  | succ fuel ih =>
    obtain ⟨t, hstep, hag⟩ := step_agrees_refBlock hS h
    rw [refLoop]
    generalize href : refBlock S Config.paySink first v = q at hag
    cases hag with
    | @next isLast w hm =>
      rw [ref_bind_ok href]
      cases isLast with
      | false =>
        obtain ⟨hinp, hmove, -⟩ := stepsMoveForward s t hstep
        obtain ⟨hforward, hinside⟩ := hmove (by rw [hm.phase]; decide)
        rw [hm.inp] at hinside
        obtain ⟨k, u, hrun, hend⟩ := ih hm (by omega)
        exact ⟨k + 1, u, (run_succ hstep k).trans hrun, hend⟩
      | true =>
        have hdone : t.phase = .done := hm.phase
        refine ⟨1, t, run_succ hstep 0, .inl hdone, ?_⟩
        rw [State.observed, if_pos hdone, ← hm.cursor, ← hm.evt, ← hm.pay]
        rfl
    | failed hp hobs =>
      rw [ref_bind_error href]
      exact ⟨1, t, run_succ hstep 0, .inr hp, hobs⟩

end

/-- Settles O51: the first step is R116's signature check, and the run from there is its loop. -/
theorem machineComputesTheReferenceFunction : Obligations.MachineComputesTheReferenceFunction := by
  intro m first hm
  have hstart : Mirrors m first .sig { State.launch m with draws := first } ⟨0, none, [], []⟩ :=
    ⟨rfl, rfl, rfl, rfl, rfl, rfl, rfl⟩
  obtain ⟨t, hexec, hag⟩ := runIn_agrees (phaseAfter := fun _ => .header) hstart.phase (sigCheck_computes hstart)
  have hstep := (step_of_sig hm hstart.phase).trans hexec
  rw [refDecode_eq, refRun_eq]
  generalize href : refSignature m ⟨0, none, [], []⟩ = q at hag
  cases hag with
  | next hmirror =>
    obtain ⟨k, u, hrun, hend⟩ := run_agrees_refLoop hm (m.length + 1) hmirror (by omega)
    rw [ref_bind_ok href]
    exact ⟨k + 1, u, (run_succ hstep k).trans hrun, hend⟩
  | failed hp hobs =>
    rw [ref_bind_error href]
    exact ⟨1, t, run_succ hstep 0, .inr hp, hobs⟩

end Sys2Proof.Machine
end

section
/-! Failure entry (R127, R128): what the entry writes, and the frame of an instruction that ends in one. -/

namespace Sys2Proof.Machine

/-- Settles O8: each clause is a field the failure entry writes, or one it leaves as it was. -/
theorem failureEntryWritesErrAndPhase : Obligations.FailureEntryWritesErrAndPhase := fun r info s =>
  failedFrom_failureEntry s r info

/-! ### The ends of an instruction that fails -/

/-- SIG answers in SIG only (R113). -/
theorem phase_of_exec_sig {s t : State} (h : exec .sig s = .next t) : s.phase = .sig := by
  by_contra hp
  cases (runIn_disabled sigCheck hp).symm.trans h

/-- Type code 6 is PICTURE's alone (R54). -/
theorem eq_picture_of_blockType {i : Instr} (hi : i.slot = .header) (hcode : (instrHdr i).blockType = 6) :
    ∃ isLast length, i = .picture isLast length := by
  have hi := decodeHeaderWord_encodeWord hi
  rw [decodeHeaderWord, show hdrBlockType (encodeWord i) = 6 from hcode] at hi
  exact ⟨_, _, hi.symm⟩

/-- A block that closes does not leave the machine FAILED (R86). -/
theorem Closes.phase_ne_failed {s t : State} {hdr : Hdr} {bs : List Byte} {body : Body} {ps : List (List Byte)}
    (h : Closes s t hdr bs body ps) : t.phase ≠ .failed := by
  rw [h.phase]
  obtain ⟨-, hphase⟩ | ⟨-, hphase⟩ := phaseAfterClose_cases hdr.isLast <;> simp [hphase]

/-- SIG fails with nothing put on PAY. -/
theorem failsWith_of_exec_sig {s t : State} (h : exec .sig s = .next t) (ht : t.phase = .failed) :
    ∃ r info, FailsWith s t [] r info := by
  obtain ⟨-, hpass⟩ | ⟨u, r, info, hu, hf⟩ := exec_sig_cases (phase_of_exec_sig h)
  · cases hpass.symm.trans h
    cases ht
  · cases hu.symm.trans h
    exact ⟨r, info, hf⟩

/-- An instruction fails with nothing put on PAY, or it is a Picture whose payload was delivered before CLOSE found
bytes left over (R109 (c)). -/
theorem failsWith_of_exec {i : Instr} {s t : State} (h : exec i s = .next t) (ht : t.phase = .failed) :
    ∃ ps r info, FailsWith s t ps r info ∧ (ps = [] ∨ ∃ isLast length payload,
      i = .picture isLast length ∧ r = .format .bodyUnderread ∧ ps = [payload]) := by
  obtain rfl | hi := eq_sig_or_slot_eq_header i
  · obtain ⟨r, info, hf⟩ := failsWith_of_exec_sig h ht
    exact ⟨[], r, info, hf, .inl rfl⟩
  obtain ⟨u, hu, ⟨_, _, _, hc⟩ | ⟨ps, r, info, hf, hlen, hpaid⟩⟩ :=
    exec_header_cases i hi (phase_of_exec_header hi h) <;> cases hu.symm.trans h
  · exact absurd ht hc.phase_ne_failed
  · refine ⟨ps, r, info, hf, ?_⟩
    match ps, hlen with
    | [], _ => exact .inl rfl
    | [payload], _ =>
      obtain ⟨hr, hcode⟩ := hpaid (List.cons_ne_nil _ _)
      obtain ⟨isLast, length, hi⟩ := eq_picture_of_blockType hi hcode
      exact .inr ⟨isLast, length, payload, hi, hr, rfl⟩

/-- Settles O37: every instruction fails by a failure entry, and only a Picture has put anything on PAY before it. -/
theorem failedInstructionFrame : Obligations.FailedInstructionFrame := by
  intro i s t h ht
  obtain ⟨ps, r, info, hf, hps⟩ := failsWith_of_exec h ht
  refine ⟨hf.inp, fun a => congrArg (·.read a) hf.inp, hf.evt, hf.blk, by simpa [hf.err] using hf.named, ?_⟩
  obtain rfl | ⟨isLast, length, payload, hi, rfl, rfl⟩ := hps
  · exact .inl (by simpa using hf.pay)
  · exact .inr ⟨isLast, length, payload, hi, by rw [hf.err], hf.pay⟩

end Sys2Proof.Machine
end

section
/-! The lengths at which a block can close (R144, R149): they are those of the records its type can emit. -/

namespace Sys2Proof.Machine

/-- A framed record's header is one a producer may write (R144), and its type has a parser (R149). -/
theorem Block.Framed.closable {b : Block} (h : b.Framed) :
    (instrOfCode b.blockType b.isLast b.length).closable = true := by
  obtain ⟨isLast, t, length, body⟩ := b
  obtain ⟨ht, hlen⟩ := h
  obtain rfl : t = body.typeCode := ht
  cases body with
  | streamInfo r =>
    obtain ⟨hlen, -⟩ := hlen
    exact decide_eq_true hlen
  | padding => rfl
  | seekTable r =>
    have hlen : length.toNat = 18 * r.points.length := hlen
    exact decide_eq_true (by omega)
  | vorbisComment r =>
    have hlen : length.toNat = 8 + r.vendor.length + _ := hlen
    exact decide_eq_true (by omega)
  | picture r =>
    obtain ⟨hlen, -⟩ := hlen
    have hlen : length.toNat = 32 + r.mime.length + r.description.length + r.payloadLength.toNat := hlen
    exact decide_eq_true (by omega)

/-- Settles O38: a block that closes emits a framed record under its instruction's own header. -/
theorem onlyClosableLengthsClose : Obligations.OnlyClosableLengthsClose := by
  intro i s t h ht
  obtain rfl | hi := eq_sig_or_slot_eq_header i
  · rfl
  obtain ⟨bs, body, ps, hc⟩ := closes_of_exec_header hi h ht
  have hframed : Block.Framed ⟨(instrHdr i).isLast, (instrHdr i).blockType, (instrHdr i).length, body⟩ :=
    hc.encodes.framed hc.length hc.typeCode
  rw [← decodeHeaderWord_encodeWord hi]
  exact hframed.closable

end Sys2Proof.Machine
end
